-- ==== Sys2Proof/Word.lean ====
section
/-!
DEFINITION. Word.lean: the word types of the device (00_scope: R5, R6, R11).
-/

namespace Sys2Proof

/-- One byte of a register, a structure in host memory, a tile or an NVM page. -/
abbrev Byte := BitVec 8

/-- A 16-bit field or sample VALUE. -/
abbrev Word16 := BitVec 16

/-- A 32-bit register, handle, result or event parameter. -/
abbrev Word32 := BitVec 32

/-- A 64-bit host address or GTC value on an interface. -/
abbrev Word64 := BitVec 64

end Sys2Proof
end

