-- ==== Sys2Proof/Syntax.lean ====
section
/-!
DEFINITION. Syntax.lean: the commands of the block, one constructor of `Instr` per row of spec/opcode_table.json, and
the operands they carry.

A row is one whole, indivisible step of the part (95_what_each_step_holds). What the device READS from outside (a
descriptor, a buffer, the doorbell block, a level on a pin, a conversion result) is an operand of the row; what it
writes is in the state.
-/

namespace Sys2Proof

/-- A submission as Paste handles it: the ring it came from, the fields of its 64-byte descriptor (R320) other than
OPCODE, which the row names, and the bytes DMA read from the start of its host buffer. -/
structure Submission where
  /-- Submission ring, 0 to 15. -/
  sq : Nat
  /-- FLAGS, byte 1: bit 0 ORDERED, bit 1 NO_IRQ, bits [7:2] the opcode's own. -/
  flags : Byte
  /-- TAG [11:0]. -/
  tag : Nat
  /-- TAG [15:12], the tag generation. -/
  gen : Nat
  /-- HANDLE, bytes 4 to 7. -/
  handle : Word32
  /-- TIME, bytes 8 to 15: the scheduled GTC, 0 for now. -/
  time : Nat
  /-- BUF_ADDR, bytes 16 to 23. -/
  bufAddr : Nat
  /-- BUF_LEN, bytes 24 to 27. -/
  bufLen : Nat
  /-- ARGS, bytes 28 to 63. -/
  args : List Byte
  /-- What the device reads from the host buffer, where the opcode reads one. -/
  data : List Byte
  /-- A translation fault or a failed completion meets the buffer, which is not pageable (R300). -/
  fault : Bool := false
deriving DecidableEq, Repr

/-- A descriptor as DMA fetched it: its 64 raw bytes, and the content of the buffer it names. -/
structure FetchedDescriptor where
  raw : List Byte
  data : List Byte
  /-- The submission tile it lies in fails its check (R289, R321). -/
  crcBad : Bool := false
  /-- A read or a write of its buffer fails (R300). -/
  fault : Bool := false
deriving DecidableEq, Repr

/-- A command of a submission ring, named as ABORT names one (R342). -/
structure CommandRef where
  sq : Nat
  tag : Nat
  gen : Nat
deriving DecidableEq, Repr

/-- What the Press latches at a tick boundary besides the samples it already holds (R103): the changes since the last
boundary, in the order in which they came. -/
structure TickInputs where
  /-- Inputs of comparator cells that have changed (R265): cell number and the voltage at the cell input, µV; for a reverse cell the reverse current's. -/
  cells : List (Nat × Int)
  /-- V_FWD of feeds that has changed (R194, R197): feed 0 to 3, and mV. -/
  fwd : List (Nat × Int)
  /-- Leaves whose current (false) or power (true) loop held the gate since the last boundary (R111). -/
  loops : List (Nat × Bool)
  /-- Channels whose gate driver is at its 20 mA source limit (R173). -/
  srcLimit : List Nat
  /-- Reservoir voltage above VDn of the four bank pumps, mV (R73). -/
  pumps : List Int
  /-- Seat and mate inputs that went mated: 0 to 7 SEAT, 8 to 15 MATE0A, MATE0B to MATE3B (R133). -/
  mated : List Nat
deriving DecidableEq, Repr

/-- What BOOT finds on the pins and in the memories it tests (R225, R226, R409, R418, R435, R463). -/
structure BootInputs where
  /-- CLKSEL high: REFCLK is the reference of the root PLL. -/
  clkRef : Bool
  /-- REFCLK is valid (R437). -/
  refValid : Bool
  /-- REGSTRAP0 and REGSTRAP1 codes, 0 to 7 in the row order of R226. -/
  strap0 : Nat
  strap1 : Nat
  /-- ADDR code, 0 to 15. -/
  addrCode : Nat
  /-- SEQs of Cave records whose CRC no longer matches (R396), and that a program which power interrupted has left a torn record (R404). -/
  spoiled : List Nat := []
  torn : Bool := false
  /-- Periods of the 32.768 kHz oscillator since the last tick, in a clock failure or in reset (R398). -/
  periods : Nat := 0
  /-- The best Cave mode whose memories pass their test: 0 NORMAL, 1 DEGRADED, 2 VOLATILE (R409). -/
  caveMode : Nat
  /-- Paste starts and its cores run (R418 step 4). -/
  pasteRuns : Bool
  /-- The pins held mated, 0 to 7 SEAT, 8 to 15 MATE0A, MATE0B to MATE3B, with the µs that the always-on domain has counted of each (R225). -/
  mated : List (Nat × Nat) := []
  /-- Time since the retention record was written, in µs of the always-on counter; none when that counter stopped. -/
  elapsed : Option Nat
  /-- The thermistors converted before the models are set: number and VALUE (R155). -/
  ntc : List (Nat × Int) := []
deriving DecidableEq, Repr

/-- A conversion's kind: of the standing schedule, a plausibility pair (with the checker's own slice and reading), an
urgent request, or conversion of a user sequence's burst (R228, R247, R250, R252). -/
inductive ConversionKind where
  | standing
  | pair (checkerSlice : Nat) (checkerRaw : Int)
  | urgent
  | sequence (seqId : Nat) (entry : Nat)
deriving DecidableEq, Repr

/-- One conversion (R235): the converting bank and slice, the node, and the input on the VALUE scale of R236 before
any clipping. -/
structure ConversionData where
  bank : Nat
  slice : Nat
  node : Nat
  raw : Int
  kind : ConversionKind
deriving DecidableEq, Repr

/-- An access of a Paste core to a tile of the Vat (R296). -/
structure TileAccess where
  tile : Nat
  write : Bool
  /-- It goes through the checker. -/
  checked : Bool
deriving DecidableEq, Repr

/-- What Rind's patrol finds in the tile it reads (R288, R291) and, for a tile that must then be tested, whether the four
patterns read back (R289). -/
structure PatrolFinding where
  /-- Single-bit errors corrected since the patrol's last read, by it or by any other read of the Vat (R288). -/
  singles : Nat
  /-- A word with a double-bit error. -/
  double : Bool
  /-- The CRC of a CLOSED tile does not match (R291). -/
  crcBad : Bool := false
  /-- The pattern test of the tile passes. -/
  testPass : Bool
deriving DecidableEq, Repr

/-- What wakes the device from PARK (R445), the time spent there in periods of the 32.768 kHz oscillator, and what was
latched meanwhile (R141). -/
structure WakeInputs where
  code : Nat
  detail : Nat
  periods : Nat
  /-- Park-kept units whose trip cell has latched. -/
  trips : List Nat
  /-- Park-kept units whose limit flag is set. -/
  limits : List Nat
  /-- The thermistors converted before the models are advanced: number and VALUE (R156). -/
  ntc : List (Nat × Int) := []
  /-- Inputs of comparator cells that changed in PARK, in order: cell, and the voltage at the cell input, µV (R265, R269, R281). -/
  cells : List (Nat × Int) := []
  /-- Banks whose conversions of node 233 stay outside their tolerance for 1 ms after the buffer is enabled (R240, R242). -/
  refs : List Nat := []
deriving DecidableEq, Repr

/-- What the host sets in the configuration space beside ATS, PRI and PTM (R305). -/
structure LinkConfig where
  /-- MSI-X Enable and Function Mask (reset clear: PRESUMED, log entry 122). -/
  msixEnable : Bool := false
  msixMask : Bool := false
  /-- Max Read Request Size and Max Payload Size, bytes (reset 512 and 128: PRESUMED, log entry 122). -/
  maxRead : Nat := 512
  maxPayload : Nat := 128
  /-- AER reporting is enabled (reset clear: PRESUMED, log entry 122). -/
  aer : Bool := false
  /-- ASPM: L0s and L1 are enabled (reset clear: PRESUMED, log entry 122). -/
  l0s : Bool := false
  l1 : Bool := false
deriving DecidableEq, Repr, Inhabited

/-- What the link trained to, and what the host then set in the configuration space (R297, R299, R305, R385). -/
structure LinkInputs where
  /-- 1: 2.5 GT/s, 2: 5 GT/s, 3: 8 GT/s. -/
  speed : Nat
  width : Nat
  ats : Bool
  pri : Bool
  ptm : Bool
  cfg : LinkConfig := { msixEnable := true }
deriving DecidableEq, Repr

/-- Two-wire address classes (R464): the primary and the secondary address. -/
inductive BusClass where
  | management
  | diagnostic
deriving DecidableEq, Repr

/-- The PEC byte of a two-wire write (R460). -/
inductive Pec where
  | good
  | bad
  | missing
deriving DecidableEq, Repr

/-- The data of a two-wire write after its command code and, for a block, its byte count. -/
structure BusWrite where
  bytes : List Byte
  pec : Pec
deriving DecidableEq, Repr

/-- How an attempt at a Host Notify ends on the bus (R477, R478). -/
inductive NotifyOutcome where
  | sent
  | lostArbitration
  | nacked
deriving DecidableEq, Repr

/-- The state of the bus lines at a hang recovery (R479): both high, SDA low until so many pulses of SCL, SDA low
through all nine, or SCL low for more than 35 ms. -/
inductive BusLine where
  | free
  | sdaLow (pulses : Nat)
  | sdaStuck
  | sclStuck
deriving DecidableEq, Repr

/-- Which memory operation of the Cave failed (R408): an NVM-A page (erase, program or verify), or the failsafe area or
the bad-page map in NVM-B. -/
inductive NvmFault where
  | page (page : Nat)
  | failsafe
deriving DecidableEq, Repr

/-- The commands of the block: one constructor per row of spec/opcode_table.json, in its order. -/
inductive Instr where
  /-- R343. Host command that completes at once with the low GTC word in RESULT. -/
  | nop (sub : Submission)
  /-- R347. Host command that completes once every earlier command of the selected SQs has completed. -/
  | fence (sub : Submission)
  /-- R342. Host command that removes a named in-flight command, or stops its transfer, if that command has not yet executed. -/
  | abort (sub : Submission)
  /-- R348. Host command that starts a leaf or parallel hoop, or runs a group hoop's ON sequence. -/
  | unitOn (sub : Submission)
  /-- R348. Host command that turns a unit off, cancels a pending retry, runs an OFF sequence, or turns off at once with OFF_NOW. -/
  | unitOff (sub : Submission)
  /-- R351. Host command that stores a PWM period and duty, or a return to DC, for channels and parallel hoops. -/
  | unitPwm (sub : Submission)
  /-- R41. Host command that clears an OVERCURRENT lock, or a DAMAGE lock when the override is permitted. -/
  | unitResetLock (sub : Submission)
  /-- R350. Host command that retires a unit, or a member of a parallel hoop, after Rind has written a lock record. -/
  | unitRetire (sub : Submission)
  /-- R350. Host command that returns a retired unit or member to service after a CLEARED record. -/
  | unitRestore (sub : Submission)
  /-- R353. Host command that writes a unit's configuration block to the host buffer. -/
  | unitConfigRead (sub : Submission)
  /-- R355. Host command that writes soft values or window monitor records, whole or not at all. -/
  | unitConfigWrite (sub : Submission)
  /-- R356. Host command that forms a group hoop from a sequence table and member handles. -/
  | hoopForm (sub : Submission)
  /-- R356. Host command that replaces the member list and sequence table of a group hoop. -/
  | hoopEdit (sub : Submission)
  /-- R357. Host command that dissolves a group hoop and makes its members top-level. -/
  | hoopDissolve (sub : Submission)
  /-- R358. Host command that writes telemetry records and, optionally, urgent sample words. -/
  | telemSnapshot (sub : Submission)
  /-- R359. Host command that starts a sequence's stream into an ST ring. -/
  | streamStart (sub : Submission)
  /-- R360. Host command that stops a stream, or releases a stream the device has stopped, and reports the last page. -/
  | streamStop (sub : Submission)
  /-- R361. Host command that arms a capture slot, or fires an armed slot. -/
  | captureArm (sub : Submission)
  /-- R362. Host command that writes a held capture's header and rows to the host buffer. -/
  | captureRead (sub : Submission)
  /-- R363. Host command that stores a user sequence definition. -/
  | seqDefine (sub : Submission)
  /-- R363. Host command that triggers a user sequence's burst. -/
  | seqTrigger (sub : Submission)
  /-- R364. Host command that copies Cave records, with a header and a trailer, to the host buffer. -/
  | logRead (sub : Submission)
  /-- R365. Host command that writes a CLEAR record naming the host. -/
  | logClear (sub : Submission)
  /-- R166. Host command that checks, stores and applies a signed harness profile. -/
  | profileLoad (sub : Submission)
  /-- R423. Host command that verifies, stores and applies a signed recipe. -/
  | recipeLoad (sub : Submission)
  /-- R367. Host command that writes an image chunk to an inactive slot and, with FINAL, verifies the image. -/
  | fwStage (sub : Submission)
  /-- R368. Host command that starts a hitless Paste handover, or selects the inactive Rind slot. -/
  | fwActivate (sub : Submission)
  /-- R368. Host command that hands over to, or selects, the image in the other slot. -/
  | fwRollback (sub : Submission)
  /-- R369. Host command that changes between RUN and DOZE, or makes PARK pending. -/
  | powerState (sub : Submission)
  /-- R370. Host command that runs a PTM dialogue at once and reports the correction. -/
  | timeSync (sub : Submission)
  /-- R371. Host command that calibrates the converter slices, or re-measures a unit's amplifier offsets. -/
  | calRun (sub : Submission)
  /-- R372. Host command that runs the DAC check, the tile tag dump or the lock record read. -/
  | diagRun (sub : Submission)
  /-- R340. A scheduled command reaches its TIME and is taken in by the Press, or completes with LATE. -/
  | scheduledAction
  /-- R61. A prepared hoop-table change, member retirement or restoration commits at a tick boundary. -/
  | hoopTableSwap
  /-- R105. Press tick boundary: the six per-leaf steps, then hoop aggregation and event hand-over. -/
  | protectionTick (inp : TickInputs)
  /-- R158. After the urgent conversions, pre-flight decides whether a unit in ARM may enter RAMP. -/
  | preflight (unit : Nat)
  /-- R81. A ramp completes, the unit enters ON, and the capacitance fit is published or discarded. -/
  | rampDone (unit : Nat)
  /-- R113. The fault timer reaches PROT_FAULT_TIME and the unit trips with cause FAULT_TIME. -/
  | faultTimerExpiry (unit : Nat)
  /-- R129. The retry delay has run out and the models are below re-arm, so COOL leads to ARM or OFF. -/
  | retry (unit : Nat)
  /-- R37. Seating is not confirmed within t_arm, and the unit returns to OFF. -/
  | tArmExpiry (unit : Nat)
  /-- R133. Mapped seat pins have been mated for 5 ms, so seating is confirmed; AUTO_MATE may re-arm a feed. -/
  | seatConfirm (unit : Nat)
  /-- R123. PG asserts after PROT_T_PG in its window, or deasserts. -/
  | pgChange (unit : Nat)
  /-- R116. The output has lagged the reference for longer than PROT_T_TRACK, and the fault timer starts. -/
  | rampStall (unit : Nat)
  /-- R118. The lag stays below half of PROT_V_TRACK for PROT_T_TRACK, and RAMP_STALL clears. -/
  | rampStallClear (unit : Nat)
  /-- R130. The clean-interval timer reaches PROT_CLEAN_INT, and RETRIES_USED decrements. -/
  | cleanInterval (unit : Nat)
  /-- R153. The current stays at or below I_RATED for LT_CLEAR, and the let-through integral resets. -/
  | ltClear (unit : Nat)
  /-- R73. A bank pump reservoir is below VDn + 8.5 V for 10 µs. -/
  | cpUv (bank : Nat)
  /-- R73. A bank pump reservoir is below VDn + 6.0 V for 10 µs, and the bank's conducting units trip. -/
  | cpFail (bank : Nat)
  /-- R73. A bank pump reservoir stays above VDn + 9.0 V for 100 µs, and CP_UV and CP_FAIL clear. -/
  | cpRecover (bank : Nat)
  /-- R55. A step's DELAY has passed, and the members of the next ON sequence step are started. -/
  | sequenceStep (hoop : Nat)
  /-- R58. A PG_REQ member's TIMEOUT expires and the ON sequence aborts. -/
  | seqAbort (hoop : Nat)
  /-- R57. A gap has passed, and the next lower step of an OFF sequence is turned off. -/
  | offSequenceStep (hoop : Nat)
  /-- R170. The output has stayed high in HOLD_OFF for DIAG_T_CHECK, giving DS_SHORT or BACKFEED. -/
  | offStateCheck (ch : Nat)
  /-- R172. The output has stayed below DIAG_LEAK_V for DIAG_T_CHECK, and the BACKFEED report ends. -/
  | backfeedEnd (ch : Nat)
  /-- R173. The ENHANCE gate check window of DIAG_T_GATE ends with GS_SHORT, GATE_LOW or no verdict. -/
  | gateCheck (ch : Nat)
  /-- R174. A stalled ramp's gate is examined DIAG_T_GATE after RAMP_STALL, giving GS_SHORT, OPEN or no verdict. -/
  | stallExamination (ch : Nat)
  /-- R175. A conducting unit or member shows no current despite gate drive for DIAG_T_CHECK, giving OPEN. -/
  | openCheck (ch : Nat)
  /-- R185. A member has deviated from the mean by more than DIAG_IMB_PCT for DIAG_T_CHECK. -/
  | imbalance (ch : Nat)
  /-- R204. A lost feed has run in ON with VIN in window for T_RECOVER, and its loss condition ends. -/
  | tRecoverExpiry (feed : Nat)
  /-- R90. A slot trip cell crosses its threshold and starts the FAST sink through TRIP with no clock. -/
  | tripCellFire (ch : Nat)
  /-- R100. A slot trip cell fires in substate PWM and ends the on-time of that period. -/
  | cycleTrip (ch : Nat)
  /-- R95. A pulse generator period starts, with a turn-on edge and edge energy added to the FET model. -/
  | pwmPeriodStart (ch : Nat)
  /-- R199. A feed short-circuit cell fires and sinks both feed gates with no clock. -/
  | feedShort (feed : Nat)
  /-- R198. A feed reverse cell fires and moves the feed to BLOCKING. -/
  | feedReverse (feed : Nat)
  /-- R197. V_FWD exceeds FEED_V_ON with no reverse cell asserted, and the feed moves to CONDUCTING. -/
  | feedConduct (feed : Nat)
  /-- R203. A feed loss condition begins, and the shed gates fire the matching mask. -/
  | feedLoss (feed : Nat)
  /-- R199. A feed VIN overvoltage cell asserts and, with OV_OFF, sets the feed's OFF latch. -/
  | feedVinOv (feed : Nat)
  /-- R134. A mapped seat or mate pin is released for 2 µs and sets the OFF latch of the mapped units. -/
  | seatRelease (pin : Nat)
  /-- R394. The filtered XTRIP_L line changes level, and an assertion sets the OFF latches of units with reaction OFF. -/
  | xtripChange (low : Bool)
  /-- R211. The bus falls below HOLD_V_RELEASE, and the store is released onto it. -/
  | holdRelease
  /-- R213. A release ends when a feed has taken over, the store is spent, or E_rel reaches its cap. -/
  | holdReleaseEnd
  /-- R218. A regulator's output is above OV_PM for 2 µs, and HGn is held low. -/
  | regOv (reg : Nat)
  /-- R220. The off time of the fallback power cycle has passed, and both regulators are started. -/
  | regulatorPowerCycle
  /-- R333. HOST_LOST still holds 30 s after the regulators restarted, so they are cycled again. -/
  | fallbackRecycle
  /-- R18. The clock monitor finds CK_MAIN wrong, absent or unlocked, and turns off every non-class-0 leaf. -/
  | clockFail
  /-- R451. SUP1 asserts; Rind commits the Cave state and NVM and link activity are restricted. -/
  | brownoutWarning
  /-- R452. VSUP has stayed above V_WARN + 200 mV for 100 µs, and BROWNOUT_WARN is recorded. -/
  | brownoutRecovery (minVsup : Nat) (duration : Nat)
  /-- R454. SUP0, SUP2 or SUP3 stays asserted for more than 2 µs, which acts as a power-on reset. -/
  | supplyReset
  /-- R457. First power is applied, and the device resets completely. -/
  | powerOnReset
  /-- R454. A low level on RST_L resets the device, keeping retention and staging. -/
  | rstL (widthNs : Nat)
  /-- R418. After VS good, or the release of RST_L, ROM verifies Rind, Rind applies the profile and boot-on set, and Paste starts. -/
  | boot (inp : BootInputs)
  /-- R225. A bank's VDn enters its normal range, and its BOOT_ON channels and HOLD enter ARM. -/
  | bankBootOn (bank : Nat)
  /-- R431. A lockstep mismatch or a Rind watchdog expiry resets the Rind domain. -/
  | rindDomainReset
  /-- R431. Rind returns after a domain reset, records pending items and resumes interrupted work. -/
  | rindRestart
  /-- R424. The 1 ms heartbeat check finds a core stalled, which causes a Paste restart. -/
  | pasteWatchdog (stalled : List Nat)
  /-- R296. A Paste core makes a forbidden Vat access, which causes a Paste restart: a read or a write of a tile, through the checker or not. -/
  | pasteFault (core : Nat) (access : TileAccess)
  /-- R424. A Paste core traps, which causes a Paste restart. -/
  | pasteTrap (core : Nat)
  /-- R428. The new Paste passes or fails its self-check after a handover or a boot, and the result is committed or rolled back. -/
  | pasteSelfCheck (pass : Bool)
  /-- R288. A double-bit error is found in a working tile. -/
  | vatUe (tile : Nat)
  /-- R291. Every 50 µs Rind's patrol reads one tile, corrects single errors and checks the CRC. -/
  | patrol (found : PatrolFinding)
  /-- R155. Every 1 ms Rind copies the model state into the retention region. -/
  | retentionRecord
  /-- R494. Every 100 µs the UNIT_STATUS mirror is refreshed and STATUS_MIRROR_SEQ advances. -/
  | mirrorRefresh
  /-- R235. A slice conversion completes and is delivered as a sample word, with gain, plausibility and history updates. -/
  | conversion (conv : ConversionData)
  /-- R240. 250 µs after its buffer is enabled, a bank's reference check decides REF_READY or REF_FAIL. -/
  | refReady (bank : Nat) (inTolerance : Bool)
  /-- R243. Every 10 ms the slice out of service shadows and relieves the next active slice. -/
  | spareRotation (bank : Nat) (node : Nat) (pairs : List (Int × Int))
  /-- R245. A slice calibration ends, and a failing slice is replaced permanently. -/
  | sliceCalibration (bank : Nat) (pass : Bool)
  /-- R252. A user sequence burst starts at its trigger time plus TRIG_DELAY, or after the running burst. -/
  | burst (seqId : Nat)
  /-- R263. The last row of a capture is written, and the slot becomes HELD. -/
  | captureDone (slot : Nat)
  /-- R283. Every 10 ms Rind checks the DAC of the next cell in rotation on tap 7. -/
  | cmpDacCheck (readback : Int) (codeChanged : Bool)
  /-- R381. A source's refill period ends, and its bucket gains one token. -/
  | eventTokenRefill (source : Nat)
  /-- R378. An event tile closes after 16 entries or 2 µs, and is sent to its ring. -/
  | eventTileClose (ring : Nat)
  /-- R326. A held completion or event entry is written once its ring has room. -/
  | ringEntryWrite (index : Nat)
  /-- R330. COAL_TIME passes after the first unsignalled entry, and the ring's vector is signalled. -/
  | coalTimeExpiry (index : Nat)
  /-- R328. A stream page's time limit runs out, and the page is reported filled. -/
  | streamPageFilled (ring : Nat)
  /-- R318. At each poll interval the doorbell block is read and, if DB_GEN changed, parsed; `pages` are the page addresses read from the stream
  ring entries published since (R328), by ST ring, oldest first. -/
  | doorbellPoll (block : Option (List Byte)) (pages : List (Nat × Nat))
  /-- R316. The ring set table read completes, and its records are validated and acted on. -/
  | ringSetTableRead (table : Option (List Byte))
  /-- R321. Fetched descriptors are closed in a submission tile and parsed by Paste. -/
  | descriptorFetch (sq : Nat) (fetched : List FetchedDescriptor)
  /-- R332. Host silence, a failed doorbell or table read, or no ENABLE within 30 s starts HOST_LOST and its fallback. -/
  | hostLost
  /-- R300. A translation fault or failed completion on a pinned structure or command buffer. -/
  | dmaFault (target : Nat) (addr : Nat) (cmd : CommandRef)
  /-- R297. An ATS translation completes, and the waiting transfer proceeds or issues a page request: the size translated, none where the page is absent. -/
  | translationResponse (xfer : Nat) (size : Option Nat)
  /-- R299. A page request response arrives, and the paused transfer resumes or fails. -/
  | pageRequestResponse (prg : Nat) (code : Nat)
  /-- R298. A command's page request waits 1 s, and the command completes with XLATE. -/
  | pageRequestTimeout (prg : Nat)
  /-- R297. An ATS invalidation request is received and completed. -/
  | atsInvalidate (addr : Nat) (bytes : Nat)
  /-- R309. PERST_L resets the host interface, and its deassertion is a wake source. -/
  | perstL (asserted : Bool)
  /-- R309. A function level reset resets the host interface. -/
  | flr
  /-- R442. PME_Turn_Off in park pending leads to L2 and PARK entry. -/
  | pmeTurnOff
  /-- R446. A wake source in PARK brings the device to DOZE. -/
  | wake (inp : WakeInputs)
  /-- R335. DOE Discovery request in the mailbox. -/
  | doeDiscovery (index : Nat)
  /-- R335. SPDM GET_VERSION request. -/
  | getVersion
  /-- R335. SPDM GET_CAPABILITIES request. -/
  | getCapabilities (flags : Word32)
  /-- R335. SPDM NEGOTIATE_ALGORITHMS request. -/
  | negotiateAlgorithms (asymAlgos : Word32) (hashAlgos : Word32)
  /-- R335. SPDM GET_DIGESTS request. -/
  | getDigests
  /-- R335. SPDM GET_CERTIFICATE request for slot 0. -/
  | getCertificate (slot : Nat) (offset : Nat) (length : Nat)
  /-- R335. SPDM CHALLENGE request, answered within 100 ms. -/
  | challenge (slot : Nat) (nonce : List Byte)
  /-- R336. SPDM GET_MEASUREMENTS request reporting the measurement blocks. -/
  | getMeasurements (index : Nat) (nonce : List Byte)
  /-- R311. Writing 1 to SETUP_CTRL ENABLE checks the base addresses and starts ring service. -/
  | enable
  /-- R312. Writing 0x4C4B to SETUP_LOCK locks every RWL field. -/
  | setupLock (value : Word32)
  /-- R487. A read of TIME_GTC_LO latches the upper GTC half into TIME_GTC_HI. -/
  | timeGtcLoRead
  /-- R491. A write to an EVENT_RATE entry acts on its source's bucket and refill timer. -/
  | eventRateWrite (source : Nat) (value : Word16)
  /-- R330. A write to an MSI-X VECTOR_CTRL entry that unmasks a vector sends its pending message. -/
  | vectorCtrl (vector : Nat) (value : Word32)
  /-- R483. A BAR0 write to a register with no row of its own is applied, ignored, or rejected and counted. -/
  | bar0Write (offset : Nat) (bytes : List Byte)
  /-- R385. The INTERVAL timer starts a periodic PTM dialogue. -/
  | ptmDialogue
  /-- R386. A PTM response arrives, and Rind trims, slews or steps the GTC. -/
  | ptmResponse (hostTime : Nat)
  /-- R385. A PTM dialogue times out after 10 ms. -/
  | ptmFail
  /-- R388. No dialogue succeeds for the holdover time, and SYNCED clears. -/
  | timeUnsync
  /-- R402. The open Cave record's repeat window ends, and the record is committed. -/
  | caveRepeatWindow
  /-- R408. An NVM-A page erase, program or verify fails, and the page is mapped out. -/
  | logMemFault (fault : NvmFault)
  /-- R400. Every 10 minutes Rind writes the next operating-counter slot. -/
  | operatingCounterWrite
  /-- R516. Every 60 s of RUN or DOZE, during a refresh pass, Rind refreshes one NVM page. -/
  | nvmRefresh
  /-- R434. A debug token presented on the debug port is verified, and the port is unlocked or left locked. -/
  | debugToken (token : List Byte)
  /-- R468. Two-wire Block Read of the device identity. -/
  | ident (cls : BusClass)
  /-- R476. Two-wire read of the status word, which clears latched bits for the management class. -/
  | statusWord (cls : BusClass)
  /-- R467. Two-wire read of NOTIFY_MASK. -/
  | notifyMaskRead (cls : BusClass)
  /-- R477. Two-wire write of NOTIFY_MASK. -/
  | notifyMaskWrite (cls : BusClass) (w : BusWrite)
  /-- R472. Two-wire read of the class's RESULT, which returns a done state to idle. -/
  | result (cls : BusClass)
  /-- R469. Two-wire write that sets the class's unit pointer. -/
  | telemSelect (cls : BusClass) (w : BusWrite)
  /-- R469. Two-wire read of a unit's handle and mirror words. -/
  | telemRead (cls : BusClass)
  /-- R470. Two-wire write that sets the Cave pointer and commits the open record. -/
  | caveSelect (cls : BusClass) (w : BusWrite)
  /-- R470. Two-wire read of a block of Cave records that advances the pointer. -/
  | caveRead (cls : BusClass)
  /-- R471. Two-wire clear of the Cave with clearer code 2. -/
  | caveClear (cls : BusClass) (w : BusWrite)
  /-- R473. Two-wire UNIT_ON or UNIT_OFF for a unit whose envelope grants BUS_CTRL. -/
  | unitCmd (cls : BusClass) (w : BusWrite)
  /-- R474. Two-wire opening of a profile or image bulk session. -/
  | bulkOpen (cls : BusClass) (w : BusWrite)
  /-- R474. Two-wire data chunk of a bulk session at the expected offset. -/
  | bulkChunk (cls : BusClass) (w : BusWrite)
  /-- R474. Two-wire commit of a complete bulk session for checking and applying. -/
  | bulkCommit (cls : BusClass) (w : BusWrite)
  /-- R474. A bulk session receives no chunk for 60 s and is discarded. -/
  | bulkSessionTimeout
  /-- R475. Two-wire read of V_WARN and WAKE_TIMER. -/
  | powerSettingsRead (cls : BusClass)
  /-- R475. Two-wire write of V_WARN and WAKE_TIMER to both NVM-B copies. -/
  | powerSettingsWrite (cls : BusClass) (w : BusWrite)
  /-- R478. Once the bus is free, after any backoff, the device attempts a due Host Notify. -/
  | hostNotify (outcome : NotifyOutcome)
  /-- R479. Before a controller transfer, or at interface start, SDA held low is freed by clocking SCL. -/
  | hangRecovery (line : BusLine)
  /-- R480. SCL stays high for 50 µs while the target drives SDA low, and the target releases SDA and returns to idle. -/
  | sdaRelease
  /-- R481. SCL has been held low for 25 ms within one transaction, and the target interface resets. -/
  | sclTimeout
  /-- R94. N_on after the period start, the pulse generator commands the turn-off edge of the period. -/
  | pwmOffEdge (ch : Nat)
  /-- R272. CMP_BLANK × 100 ns after a pulse-generator edge, blanking ends and a cell still on its asserted side latches. -/
  | cmpBlankEnd (ch : Nat)
  /-- R75. A SINK_SLEW or SINK_FAST turn-off brings V_GS below 1 V, and the driver goes to HOLD_OFF (for a feed, FGRn then sinks FAST). -/
  | gateSinkDone (unit : Nat)
  /-- R276. A feed reverse cell releases, and its FALL flag and edge counter are set. -/
  | feedReverseRelease (feed : Nat)
  /-- R294. A handover or bulk command waiting for a tile has made no progress for 100 ms and completes with BUSY. -/
  | allocationTimeout (cmd : CommandRef)
  /-- R434. OPSEC passes the token's EXPIRY, and the debug unlock ends. -/
  | debugUnlockExpiry
  /-- R447. The link reaches L0, which releases WAKE_L when PERST_L was already deasserted at wake. -/
  | linkUp (inp : LinkInputs)
  /-- R299. The host resets and re-enables PRI in its capability, and the device may issue page requests again after a Response Failure. -/
  | priEnable
  /-- R335. A DOE request other than the supported SPDM messages receives an ERROR response with UnsupportedRequest. -/
  | spdmUnsupportedRequest (code : Byte)
  /-- R468. A two-wire transaction whose command code is unknown, forbidden to its class or not served at that moment is NACKed at the code. -/
  | smbUnservedCommand (cls : BusClass) (code : Byte)
deriving DecidableEq, Repr

end Sys2Proof
end

