-- ==== Sys2Proof/Decode.lean ====
section
/-!
DEFINITION. Decode.lean: commands read from words. spec/opcode_table.json gives no row any bits: a row is a step of the device and has no
encoding. What has an encoding, the 64-byte submission descriptor, is parsed in Machine/Operands.lean.
-/

namespace Sys2Proof

/-- The command that a word spells by the table's bits. The table gives no bits, so no word spells one. -/
def decodeTableWord (_nbits _w : Nat) : Option Instr := none

end Sys2Proof
end

