-- ==== Sys2Proof/Config.lean ====
section
/-!
DEFINITION. Config.lean: what a part or an implementation fixes and the manual does not, and the values the manual leaves
open. An opaque constant has no body: a theorem about the model holds whatever it is (notes/assumptions say which point of
the manual each one stands for).
-/

namespace Sys2Proof.Config

/-- The direction in which a value is rounded where the manual states a fixed-point field and no rounding (R145, R149,
R152). DESIGN CHOICE, log entry 7. Safe. -/
opaque roundUp : Rat → Bool

/-- The temperature, in 1/16 °C, that telemetry gives an NTC reading: from R25 in Ω, B in K and VALUE (R161, R228). The manual
names the entries and no formula. DESIGN CHOICE, log entry 9. Safe. -/
opaque ntcTemp : Nat → Nat → Int → Int

/-- A write of a lock record to NVM-B fails, by the record's SEQ (R180). Log entry 84. Safe. -/
opaque lockWriteFails : Nat → Bool

/-- A bundle written to its slot of NVM-A does not read back as written, by the counter of free choices (R165, R166). Log entry 84. Safe. -/
opaque slotWriteFails : Nat → Bool

/-- What an inactive slot of NVM-A holds after a write that did not read back (R166). Log entry 84. Safe. -/
opaque slotResidue : Nat → List Byte

/-- ECDSA P-256 verification of a debug token under a stored key hash: key hash, digest, signature r then s (R433). A token carries no key, and the
manual does not say where the device takes it from. Log entry 10. Safe. -/
opaque tokenVerifies : List Byte → List Byte → List Byte → Bool

/-- The signature the device makes over a transcript (R335, R336). Log entry 10. Safe. -/
opaque deviceSignature : List Byte → List Byte

/-- The certificate chain of slot 0 (R335). Log entry 10. Safe. -/
opaque certificateChain : List Byte

/-- SHA-256 of the mask ROM (R336, measurement block 1). Log entry 10. Safe. -/
opaque romDigest : List Byte

/-- SHA-256 of the images in the slots of an untouched part: 0 Rind, 1 Paste (R336). Log entry 4. Safe. -/
opaque factoryDigest : Nat → List Byte

/-- The hash in Azward key slot k, programmed at manufacture (R412). Log entry 10. Safe. -/
opaque azwardKeyHash : Nat → List Byte

/-- The 64-bit serial number of the part (R2, R485). Log entry 11. Safe. -/
opaque serial : Word64

/-- The n-th free choice: which free tile an allocation takes, a backoff, a nonce, the fate of an RST_L pulse within its
window. Applied to the counter `draws` of the state. Log entry 5. Safe. -/
opaque choice : Nat → Nat

/-- The root PLL trim, in 0.01 ppm, that Rind takes from the last two errors and the time between them (R386). Log entry 12.
Safe. -/
opaque trimRate : Int → Int → Nat → Int

/-- The calibrated VALUE of a bank's reference check, node 233 (R240, R242): set at manufacture, not stated. Log entry 14. Safe. -/
opaque refValue : Nat → Int

/-- What Rind grants a Paste core as one of its 32 windows, by the counter of free choices, the core and the window (R14, R296): the manual gives the form of a
window and no map. Log entry 95. Safe. -/
opaque pasteWindow : Nat → Nat → Nat → Nat

end Sys2Proof.Config
end

