-- ==== Sys2Proof/Machine/Table.lean ====
section
/-!
DEFINITION. Machine/Table.lean: sparse tables keyed by a number, kept in one canonical form (keys strictly rising), and byte
memories as such tables. Registers files, tag arrays, the Vat's SRAM and the non-volatile memories are held so.
-/

namespace Sys2Proof.Machine

/-- A sparse table: key and value pairs, keys strictly rising. -/
abbrev Tbl (α : Type) := List (Nat × α)

/-- What stands at key `k`, none where nothing is listed. -/
def Tbl.find {α : Type} : Tbl α → Nat → Option α
  | [], _ => none
  | (j, a) :: m, k => if j = k then some a else Tbl.find m k

/-- What stands at key `k`, `d` where nothing is listed. -/
def Tbl.get {α : Type} (d : α) (m : Tbl α) (k : Nat) : α := (Tbl.find m k).getD d

/-- The table with `a` listed at key `k`, in its place. -/
def Tbl.put {α : Type} : Tbl α → Nat → α → Tbl α
  | [], k, a => [(k, a)]
  | (j, b) :: m, k, a => if k < j then (k, a) :: (j, b) :: m else if k = j then (k, a) :: m else (j, b) :: Tbl.put m k a

/-- The table with nothing listed at key `k`. -/
def Tbl.del {α : Type} : Tbl α → Nat → Tbl α
  | [], _ => []
  | (j, b) :: m, k => if j = k then Tbl.del m k else (j, b) :: Tbl.del m k

/-- The table with `a` at key `k`, where an unlisted key reads as `d`: the canonical form lists no entry equal to `d`. -/
def Tbl.set {α : Type} [DecidableEq α] (d : α) (m : Tbl α) (k : Nat) (a : α) : Tbl α :=
  if a = d then Tbl.del m k else Tbl.put m k a

/-- Keys above `n` and strictly rising. -/
def Tbl.above {α : Type} : Option Nat → Tbl α → Bool
  | _, [] => true
  | none, (j, _) :: m => Tbl.above (some j) m
  | some n, (j, _) :: m => decide (n < j) && Tbl.above (some j) m

/-- The canonical form: keys strictly rising. -/
def Tbl.wf {α : Type} (m : Tbl α) : Bool := Tbl.above none m

/-- A byte memory. -/
abbrev Mem := Tbl Byte

/-- The canonical form of a byte memory: addresses strictly rising, and no entry equal to what an unlisted address reads as (none where it has no value of
the device's). -/
def Mem.wf (unlisted : Option Byte) (m : Mem) : Bool := Tbl.wf m && m.all fun p => some p.2 != unlisted

/-- Bytes stored at consecutive addresses from `a` on, where an unlisted address reads as `d`. -/
def Mem.store (d : Byte) (m : Mem) (a : Nat) : List Byte → Mem
  | [] => m
  | b :: bs => Mem.store d (Tbl.set d m a b) (a + 1) bs

/-- Bytes written at consecutive addresses from `a` on, each listed. -/
def Mem.write (m : Mem) (a : Nat) : List Byte → Mem
  | [] => m
  | b :: bs => Mem.write (Tbl.put m a b) (a + 1) bs

end Sys2Proof.Machine
end

