-- ==== Sys2Proof/Machine/Types.lean ====
section
/-!
DEFINITION. Machine/Types.lean: the parts of the machine's state, block by block. Each field's docstring names the rule that gives
the field, its width, and its reset value.
-/

namespace Sys2Proof.Machine

/-! ## Names the manual gives -/

/-- Unit states (R34). -/
inductive UState where
  | off | arm | ramp | on | limit | cool | lock | retired
deriving DecidableEq, Repr, Inhabited

/-- Gate driver modes (R75). -/
inductive GateMode where
  | holdOff | servo | enhance | sinkSlew | sinkFast
deriving DecidableEq, Repr, Inhabited

/-- Quality of a sample (R237). -/
inductive Quality where
  | valid | settling | clipped | suspect
deriving DecidableEq, Repr, Inhabited

/-- Power states (R439). -/
inductive PowerMode where
  | run | doze | park
deriving DecidableEq, Repr, Inhabited

/-- Verdicts, in the order of their codes: the damage verdicts, then the two reports (R178). -/
inductive Verdict where
  | none | dsShort | gsShort | open_ | trackFail | backfeed | gateLow
deriving DecidableEq, Repr, Inhabited

/-- Kinds of a lock record (R181). -/
inductive LockKind where
  | cleared | damageLock | memberDamaged | retired | retiredDamaged
deriving DecidableEq, Repr, Inhabited

/-- Tile states (R284). -/
inductive TileState where
  | free | filling | closed | reading | retired
deriving DecidableEq, Repr, Inhabited

/-- Capture slot states (R262). -/
inductive CaptureState where
  | empty | armed | filling | held
deriving DecidableEq, Repr, Inhabited

/-- Cave modes (R408). -/
inductive CaveMode where
  | normal | degraded | volatile
deriving DecidableEq, Repr, Inhabited

/-- What Paste is doing (R418, R420, R425, R428): not started or restarting, serving, in the gap of a handover, down. -/
inductive PasteState where
  | stopped | serving | handover | down
deriving DecidableEq, Repr, Inhabited

/-- What Rind is doing: in reset with the device, running, in a domain reset (R431), absent (R419), stopped in PARK (R439). -/
inductive RindState where
  | inReset | running | domainReset | absent | parked
deriving DecidableEq, Repr, Inhabited

/-- The opcodes of R343. -/
inductive Op where
  | nop | fence | abort | unitOn | unitOff | unitPwm | unitResetLock | unitRetire | unitRestore | unitConfigRead
  | unitConfigWrite | hoopForm | hoopEdit | hoopDissolve | telemSnapshot | streamStart | streamStop | captureArm
  | captureRead | seqDefine | seqTrigger | logRead | logClear | profileLoad | recipeLoad | fwStage | fwActivate
  | fwRollback | powerState | timeSync | calRun | diagRun
deriving DecidableEq, Repr, Inhabited

/-! ## The harness profile (R160 to R163, R222, R223) -/

/-- A UNITS record: also the form of the Press envelope registers of a unit (R159, R162). -/
structure UnitRec where
  clamp : Bool := false
  parkKeep : Bool := false
  busCtrl : Bool := false
  damageOverride : Bool := false
  bootOn : Bool := false
  xtripOff : Bool := false
  limpOn : Bool := false
  shedClass : Nat := 0
  seatMap : Nat := 255
  protGain : Nat := 0
  escalation : Nat := 0
  ntcWire : Nat := 255
  ntcCase : Nat := 255
  retryMax : Nat := 0
  alpha : Nat := 0
  scTh : Nat := 0
  ilimMax : Nat := 0
  faultTimeMax : Nat := 0
  iRated : Nat := 0
  eFetMax : Nat := 0
  ltBound : Nat := 0
  tWireMax : Int := 0
  wireMargin : Nat := 0
  wireRearm : Int := 0
  ambOffset : Int := 0
  ambFail : Int := 0
  wireStart : Nat := 0
  wireRho20 : Nat := 0
  wireLen : Nat := 0
  wireCC : Nat := 0
  wireCI : Nat := 0
  wireRCI : Nat := 0
  wireRIA : Nat := 0
  ltClear : Nat := 0
  rdsonTc : Nat := 0
  rdson25 : Nat := 0
  rth1 : Nat := 0
  rth2 : Nat := 0
  rth3 : Nat := 0
  tau1 : Nat := 0
  tau2 : Nat := 0
  tau3 : Nat := 0
  tjMax : Int := 0
  tjRearm : Int := 0
  caseOffset : Int := 0
  caseFail : Int := 0
  pRamp : Nat := 0
  qg : Nat := 0
  qsw : Nat := 0
  ePulse : Nat := 0
  shunt : Nat := 0
  cNom : Nat := 0
  iRNom : Int := 0
  vClamp : Nat := 0
  lLoad : Nat := 0
  eClamp : Nat := 0
  vdsRating : Nat := 0
  fetStart : Nat := 0
deriving DecidableEq, Repr, Inhabited

/-- KIND_PARAMS of a feed (R223). -/
structure FeedParams where
  ovOff : Bool := false
  autoMate : Bool := false
  vinUv : Nat := 0
  vinOv : Nat := 0
  voutUv : Nat := 0
  irevMax : Nat := 0
  rdson25R : Nat := 0
  tRecover : Nat := 0
deriving DecidableEq, Repr, Inhabited

/-- KIND_PARAMS of a regulator (R223); `strapMv` is 0 but for a regulator that runs from its strap (R226). -/
structure RegParams where
  forcePwm : Bool := false
  voutNom : Nat := 0
  voutMin : Nat := 0
  voutMax : Nat := 0
  vinMin : Nat := 0
  lInd : Nat := 0
  cOut : Nat := 0
  ovPm : Nat := 0
  comp : Nat := 0
deriving DecidableEq, Repr, Inhabited

/-- KIND_PARAMS of HOLD (R223). -/
structure HoldParams where
  bank : Nat := 0
  senseBank : Nat := 0
  vStoreMax : Nat := 0
  eStoreMax : Nat := 0
  eReleaseMax : Nat := 0
  iChgMax : Nat := 0
deriving DecidableEq, Repr, Inhabited

/-- A harness profile, parsed (R160 to R163). -/
structure Profile where
  profileId : Nat := 0
  version : Nat := 0
  minVersion : Nat := 0
  /-- Banks on the 48 V net (R70). -/
  net48 : List Bool := []
  net12Vmax : Nat := 0
  net48Vmax : Nat := 0
  shedMasks : List Nat := []
  fallback : Nat := 0
  /-- R25 and B of NTC0 to NTC7. -/
  ntc : List (Nat × Nat) := []
  units : List UnitRec := []
  /-- Hoop number and members of each parallel hoop. -/
  parallel : List (Nat × List Nat) := []
  feeds : List FeedParams := []
  regs : List RegParams := []
  hold : HoldParams := {}
  keyRotate : Option (List Byte) := none
  /-- SHA-256 digest of the bundle, for measurement block 4 (R336). -/
  digest : List Byte := []
deriving DecidableEq, Repr, Inhabited

/-! ## Leaf units -/

/-- Ramp servo state of a leaf (R79 to R85, R116 to R118). -/
structure RampState where
  /-- The ramp reference, mV: what the 32-bit setpoint accumulator stands for (R79; 32 bits; reset 0). -/
  setpoint : Rat := 0
  /-- Code of the channel's reference DAC: the upper 10 bits of the accumulator (R79; 10 bits; reset 0). -/
  dac : Nat := 0
  /-- VDn at the start of RAMP, mV (R83; reset 0). -/
  vdStart : Rat := 0
  /-- VDn at ramp completion, mV, for the PG window (R125; reset 0). -/
  vdDone : Rat := 0
  /-- RAMP_LIMITING (R80; 1 bit; reset 0). -/
  limiting : Bool := false
  /-- Time the lag has been above PROT_V_TRACK, µs (R116; reset 0). -/
  lagUs : Nat := 0
  /-- Time the lag has been below half of PROT_V_TRACK, µs (R118; reset 0). -/
  clearUs : Nat := 0
  /-- RAMP_STALL active (R116; 1 bit; reset 0). -/
  stall : Bool := false
  /-- RAMP_STALL was recorded in this ramp (R118; reset 0). -/
  stalledOnce : Bool := false
  /-- GTC of the tick in which RAMP_STALL was recorded (R174; reset 0). -/
  stallAt : Nat := 0
  /-- The stall of this member has been examined (R174; reset 0). -/
  examined : Bool := false
  /-- A ramp of the member's hoop runs, or has ended and is still to be counted (R186; the model's own field, reset 0). -/
  counting : Bool := false
  /-- Fit sums over the window: s², v², s·v, s·i, v·i and the number of current samples (R83; reset 0). -/
  sss : Rat := 0
  svv : Rat := 0
  ssv : Rat := 0
  ssi : Rat := 0
  svi : Rat := 0
  fitN : Nat := 0
  /-- A limit loop had the gate, or a sample was not valid, inside the window (R84; reset 0). -/
  fitBad : Bool := false
  /-- Last output sample used for the slope and its GTC, and the GTC of the last current sample taken into the fit (R83; reset 0). -/
  lastV : Rat := 0
  lastVAt : Nat := 0
  lastIAt : Nat := 0
  /-- The slope of the output over its last two samples in this ramp, mV/µs (R83; reset none). -/
  slope : Option Rat := none
  /-- CAP_EST, µF (R83; 32 bits; reset C_NOM of the record, R85). -/
  capEst : Nat := 0
  /-- RES_EST_I, mA (R83; 32 bits signed; reset I_R_NOM, R85). -/
  resEst : Int := 0
  /-- CAP_EST_INVALID of the ramp of the present start attempt (R84; 1 bit; reset 0). -/
  capInvalid : Bool := false
  /-- Largest deviation from the members' mean in this ramp, mV (R48; reset 0). -/
  trackMax : Rat := 0
deriving DecidableEq, Repr, Inhabited

/-- Thermal models and energy ledger of a leaf (R143 to R156). Temperatures are in units of 2⁻³² K. -/
structure Ledger where
  /-- T_c and T_i (R145; 32 fractional bits; reset T_a + WIRE_START, R155). -/
  tc : Int := 0
  ti : Int := 0
  /-- θ1, θ2, θ3 (R148; reset 0, 0, FET_START, R155). -/
  th1 : Int := 0
  th2 : Int := 0
  th3 : Int := 0
  /-- T_j of the last tick (R148; reset the initial model). -/
  tj : Int := 0
  /-- AMB_FAIL in use (R146; 1 bit; reset 0). -/
  ambFailed : Bool := false
  /-- CASE_FAIL in use (R146; 1 bit; reset 0). -/
  caseFailed : Bool := false
  /-- Sum and number of the squared current samples since the last wire update (R145; reset 0). -/
  i2sum : Rat := 0
  i2n : Nat := 0
  /-- Ticks since the last wire update (R145; reset 0). -/
  wireTicks : Nat := 0
  /-- An episode is open (R152; reset 0). -/
  evOpen : Bool := false
  /-- The open episode closes when the current falls below 1 % of I_RATED (R152; reset 0). -/
  evTail : Bool := false
  /-- E_ev, mJ (R152; reset 0). -/
  eEv : Rat := 0
  /-- E_ev of the last closed episode, mJ (R152; 64 bits; reset 0). -/
  eEvLast : Rat := 0
  /-- LT, A²s (R153; reset 0). -/
  lt : Rat := 0
  /-- The integral runs (R153; reset 0). -/
  ltRunning : Bool := false
  /-- Time at or below I_RATED, µs (R153; reset 0). -/
  ltQuiet : Nat := 0
  /-- Quantities already reported by LEDGER_OVER, bit k - 1 for quantity k (R144; reset 0). -/
  overSeen : Nat := 0
  /-- The same for a retired member's own quantities (R143, R144; reset 0). -/
  overOwn : Nat := 0
  /-- E_LOAD, mJ (R258; 64 bits; reset 0). -/
  eLoad : Rat := 0
deriving DecidableEq, Repr, Inhabited

/-- Diagnostics of a leaf (R168 to R192). -/
structure Diag where
  /-- VERDICT of the diagnostic word (R187; 4 bits; reset 0). -/
  verdict : Nat := 0
  /-- UNCONTROLLABLE (R182; 1 bit; reset 0). -/
  uncontrollable : Bool := false
  /-- DAMAGED (R179; 1 bit; reset 0). -/
  damaged : Bool := false
  /-- BACKFEED report stands (R172; 1 bit; reset 0). -/
  backfeed : Bool := false
  /-- GATE_LOW at the last turn-on (R173; 1 bit; reset 0). -/
  gateLow : Bool := false
  /-- RECORDED (R180; 1 bit; reset 0). -/
  recorded : Bool := false
  /-- OTHER: GS_SHORT, OPEN, TRACK_FAIL also found (R187; 3 bits; reset 0). -/
  other : Nat := 0
  /-- TRACK_COUNT (R186; 4 bits; reset 0). -/
  trackCount : Nat := 0
  /-- IMB_PCT (R187; 8 bits; reset 0). -/
  imbPct : Nat := 0
  /-- ESC, escalation in force (R183; 2 bits; reset 0). -/
  esc : Nat := 0
  /-- Verdicts whose condition has completed, to be acted on in the next step 1: bit per code 1 to 4 (R179; reset 0). -/
  pending : Nat := 0
  /-- BACKFEED report stood when the unit entered ARM (R177; reset 0). -/
  backfeedAtArm : Bool := false
  /-- DS_SHORT stood when the unit entered ARM (R177; reset 0). -/
  shortAtArm : Bool := false
  /-- Time the driver has been in HOLD_OFF, µs (R170; reset 0). -/
  holdOffUs : Nat := 0
  /-- Time the output has been at or above DIAG_LEAK_V in the off-state check, µs (R170; reset 0). -/
  leakUs : Nat := 0
  /-- The last usable current samples of the off-state check, at most 16, newest first, mA (R170; reset none). -/
  leakI : List Rat := []
  /-- GTC of the last current sample among them (R170; reset 0). -/
  leakAt : Nat := 0
  /-- The slot trip cell latched while the driver held off (R171; reset 0). -/
  trippedOff : Bool := false
  /-- Time the output has been below DIAG_LEAK_V, µs (R172; reset 0). -/
  quietUs : Nat := 0
  /-- The ENHANCE gate check window is open (R173; reset 0), and since when, µs. -/
  gateOpen : Bool := false
  gateUs : Nat := 0
  /-- GTC at which the window opened, and V_GS of its last usable gate sample, mV (R173; reset 0 and none). -/
  gateFrom : Nat := 0
  gateLast : Option Rat := none
  /-- Driver at its 20 mA source limit, as latched (R173; reset 0). -/
  srcLimit : Bool := false
  /-- Time the OPEN condition of R175 has held, µs (reset 0). -/
  openUs : Nat := 0
  /-- Time the deviation has been above or within DIAG_IMB_PCT, µs (R185; reset 0). -/
  imbUs : Nat := 0
  imbOkUs : Nat := 0
  /-- IMBALANCE has been raised and not yet re-armed (R185; reset 0). -/
  imbRaised : Bool := false
  /-- Largest deviation of the running stretch, % (R185; reset 0). -/
  imbMax : Nat := 0
deriving DecidableEq, Repr, Inhabited

/-- Pulse generator of a channel or, through its slot channel, of a parallel hoop (R92 to R100). -/
structure Pwm where
  /-- A PWM setting is stored (R98; reset 0); with `dc` pending, none. -/
  set : Bool := false
  /-- P, in 2.5 ns, and D of the stored setting (R92; 23 and 16 bits; reset 0). -/
  period : Nat := 0
  duty : Nat := 0
  /-- The generator runs: substate PWM (R98; reset 0). -/
  running : Bool := false
  /-- P and D of the period in progress (R98; reset 0). -/
  curPeriod : Nat := 0
  curDuty : Nat := 0
  /-- Phase offset in force and the offset it moves to at the next period start (R96, R97; reset 0). -/
  phase : Nat := 0
  nextPhase : Nat := 0
  /-- GTC of the last period start (R95; reset 0). -/
  startAt : Nat := 0
  /-- The on-time of the period in progress is commanded on, and its turn-off edge is still to come (R93, R94; 1 bit each; reset 0). -/
  gateOn : Bool := false
  offDue : Bool := false
  /-- Skipped edges (R93; reset 0). -/
  skipped : Nat := 0
  /-- A cycle trip happened in the period in progress (R100; reset 0), and: it holds the unit in LIMIT until a period completes without one. -/
  cycleTrip : Bool := false
  cycleLimit : Bool := false
  /-- The last current sampled during an on-time, mA (R149; reset 0). -/
  iOn : Rat := 0
  /-- GTC until which the cells are blanked (R272; reset 0). -/
  blankUntil : Nat := 0
deriving DecidableEq, Repr, Inhabited

/-- What the telemetry averages: samples of the last 100 µs, newest first, each with its GTC (R257, R258). -/
structure Telem where
  /-- Valid current samples, mA (R257, R258; reset none). -/
  iSamples : List (Nat × Rat) := []
  /-- p of R148 of each tick, W (R258; reset none). -/
  pTicks : List (Nat × Rat) := []
  /-- Edge energies of R149, J (R258; reset none). -/
  edges : List (Nat × Rat) := []
  /-- GTC of the last clipped current sample, and of the last valid voltage sample (R258; reset none). -/
  clippedAt : Option Nat := none
  vValidAt : Option Nat := none
deriving DecidableEq, Repr, Inhabited

/-- A leaf unit as the Press holds it (R37, R103 to R142). -/
structure Leaf where
  /-- STATE (R34; 4 bits; reset OFF). -/
  st : UState := .off
  /-- SUBSTATE (R35; 2 bits; reset 0). -/
  sub : Nat := 0
  /-- PG (R123; 1 bit; reset 0). -/
  pg : Bool := false
  /-- RETRY_CANCELLED (R40; 1 bit; reset 0). -/
  retryCancelled : Bool := false
  /-- PARENT (R36; 8 bits; reset 255). -/
  parent : Nat := 255
  /-- TRIP_CAUSE (R121; 4 bits; reset 0). -/
  cause : Nat := 0
  /-- TRIP_MASK (R121; 8 bits; reset 0). -/
  mask : Nat := 0
  /-- STALL_AT_TRIP (R121; 1 bit; reset 0). -/
  stallAtTrip : Bool := false
  /-- FT_LEVEL saturates: the unit tripped with FAULT_TIME in this tick (R121; reset 0). -/
  ftTrip : Bool := false
  /-- SHED_HELD (R137; 1 bit; reset 0). -/
  shedHeld : Bool := false
  /-- RETRIES_USED (R127; 4 bits; reset 0). -/
  retries : Nat := 0
  /-- Retry delay still to run, µs (R128; reset 0), and its length, ms. -/
  retryUs : Nat := 0
  retryMs : Nat := 0
  /-- Time since the unit entered ARM, µs (R37, R157; reset 0). -/
  armUs : Nat := 0
  /-- Time in ARM since seating was last not confirmed, none while it is not confirmed (R157, R225). -/
  armReady : Option Nat := none
  /-- Fault timer, in eighths of a µs (R112; reset 0). -/
  faultT : Nat := 0
  /-- Clean-interval timer, µs (R130; reset 0). -/
  cleanT : Nat := 0
  /-- PG qualification, µs (R123; reset 0). -/
  pgUs : Nat := 0
  /-- TRIP latch (R90, R91; 1 bit; reset 0), and: it was set by the clock monitor. -/
  tripLatch : Bool := false
  tripClock : Bool := false
  /-- OFF latch (R134; 1 bit; reset 0), and: by a seat or mate release, by a shed gate, by OV_OFF or an escalation. -/
  offLatch : Bool := false
  offSeat : Bool := false
  offShed : Bool := false
  offFeed : Bool := false
  /-- The OFF latch was set by XTRIP_L and the Press has not completed the turn-off (R135; reset 0). -/
  offXtrip : Bool := false
  /-- The trigger whose shed gate set the OFF latch (R67, R205; reset 0). -/
  shedBy : Nat := 0
  /-- A shed met the unit in COOL, so its retry leads to OFF (R137, R205; reset 0). -/
  coolShed : Bool := false
  /-- The active clamp acts: V_DS above V_CL, over whatever sink the mode selects (R86, R87; 1 bit; reset 0). -/
  clamping : Bool := false
  /-- Gate driver mode (R75; reset HOLD_OFF); for a feed, the mode of FGFn. -/
  gate : GateMode := .holdOff
  /-- FGRn of a feed conducts: ENHANCE or the ideal-diode loop (R195, R197; reset 0). -/
  gateR : Bool := false
  /-- Limit flag of the loops as latched: 0 none, 1 current, 2 power (R111; reset 0). -/
  loop : Nat := 0
  /-- The loop that began the LIMIT the unit is in: 0 current, 1 power (R122; reset 0). -/
  limitLoop : Nat := 0
  /-- The unit was released by a mate release and may re-enter ARM by AUTO_MATE (R196; reset 0). -/
  autoMate : Bool := false
  /-- BOOT_ON of this unit has been served (R225; reset 0). -/
  bootDone : Bool := false
  /-- The loss condition of the feed stands (R203; reset 0), and time in ON with VIN in window, µs (R204). -/
  lost : Bool := false
  recoverUs : Nat := 0
  /-- REG_OV holds HGn low (R218; reset 0). -/
  ovHold : Bool := false
  ramp : RampState := {}
  led : Ledger := {}
  diag : Diag := {}
  pwm : Pwm := {}
  tel : Telem := {}
  /-- Status with which the unit's present start attempt ends when the unit leaves ARM or RAMP (R138), plus 256 for a release of its seat
  (R58; the model's own field, reset 5, STATE). -/
  ended : Nat := 5
  /-- Causes the present tick has decided in its steps 1 to 3, bit code - 1 (R120; the model's own field, reset 0). -/
  causes : Nat := 0
  /-- Status with which a UNIT_ON loses to a turn-off that step 4 of the tick in progress made, 0 for none (R38, R138; the model's own field, reset 0). -/
  offNow : Nat := 0
  /-- The unit entered LIMIT in the present tick (R124; the model's own field, reset 0). -/
  limitNow : Bool := false
  /-- Envelope registers (R159; reset 0: no profile is in force). -/
  env : UnitRec := {}
  /-- Soft values by field ID; an unlisted field has its default (R82, R139, R168, R233, R271, R352; 32 bits each; reset the defaults). -/
  soft : Tbl Word32 := []
deriving DecidableEq, Repr, Inhabited

/-! ## Hoops -/

/-- A sequence table entry (R54). -/
structure SeqEntry where
  member : Nat
  step : Nat
  pgReq : Bool
  delay : Nat
  timeout : Nat
deriving DecidableEq, Repr, Inhabited

/-- A sequence that a group hoop runs (R55 to R58). -/
inductive SeqRun where
  /-- None runs. -/
  | idle
  /-- An ON sequence: the step in progress, the time in µs since the boundary its delays count from, and the members started so far with the
  time in µs since their start. -/
  | on (step : Nat) (us : Nat) (started : List (Nat × Nat))
  /-- An OFF sequence over the members listed: the next step to turn off, none when every step has been, and the time in µs since the
  reference tick once every member of the steps above has ended. -/
  | off (members : List Nat) (step : Option Nat) (us : Option Nat)
deriving DecidableEq, Repr, Inhabited

/-- A formed hoop as the hoop table holds it (R42 to R60). -/
structure Hoop where
  /-- Parallel; otherwise group (R42). -/
  parallel : Bool
  members : List Nat
  table : List SeqEntry
  /-- Parent hoop, 255 for top-level (R36). -/
  parent : Nat := 255
  /-- Protection slot of a parallel hoop (R46). -/
  slot : Nat := 0
  /-- Soft values of a parallel hoop (R82). -/
  soft : Tbl Word32 := []
  /-- The sequence running (R55, R57). -/
  seq : SeqRun := .idle
  /-- Abort causes that have arisen in the tick in progress: place in the table of R58, status, unit (R58; the model's own field). -/
  causes : List (Nat × Nat × Nat) := []
  /-- The ON sequence that a UNIT_OFF of the tick in progress has ended, weighed with that tick's other causes (R58; the model's own field, reset none). -/
  ending : Option SeqRun := none
  /-- Aggregate as last published: state, MIXED, PG (R53). -/
  aggSt : UState := .off
  mixed : Bool := false
  pg : Bool := false
deriving DecidableEq, Repr, Inhabited

/-! ## Commands in the device -/

/-- Who a command came from: a submission ring, a class of the two-wire bus (R473), a recipe rule (R422), or a ring that a reset has since forgotten, or a
Paste that a restart has ended, so that its completion reaches nobody (R309, R411). -/
inductive Origin where
  | host
  | bus (cls : BusClass)
  | firmware
  | orphan
deriving DecidableEq, Repr, Inhabited

/-- How far a fetched command has come (R342, R348). -/
inductive Phase where
  /-- Fetched and not executed: behind ORDERED or FENCE, or waiting for tiles. -/
  | waiting
  /-- In the Press, waiting for its TIME (R340). -/
  | scheduled
  /-- Handed over, waiting for a tick in which its leaves are free (R341). -/
  | deferred
  /-- UNIT_ON of a leaf or parallel hoop: the attempt runs (R138). -/
  | attempt (unit : Nat)
  /-- UNIT_ON or UNIT_OFF of a group hoop: its sequence runs (R55, R57). -/
  | sequence (hoop : Nat)
  /-- A prepared edit, retirement or restoration waits for its swap (R61, R190). -/
  | swap
  /-- FENCE: waits for the commands fetched before it (R347). -/
  | fenced
  /-- A pageable transfer waits, with the bytes already transferred (R298, R342). -/
  | transfer (bytes : Nat)
  /-- TELEM_SNAPSHOT with URGENT: the records taken wait for their conversions; those that have come, by node (R250, R358). -/
  | urgent (got : List (Nat × Word32)) (bytes : List Byte)
  /-- A write to NVM waits for the end of the brownout warning (R451). -/
  | nvmWait
  /-- A Paste handover runs (R428). -/
  | handover
  /-- A PTM dialogue runs (R370). -/
  | dialogue
  /-- A calibration runs (R371). -/
  | calibration
  /-- POWER_STATE: the change waits for its boundary (R441). -/
  | power
  /-- ABORT: waits for the completion of its target (R323, R342). -/
  | after (target : Nat)
  /-- Applied in the tick in progress: completes with this status at the tick's end, with the state word as it then stands (R39, R138, R344). -/
  | applied (status : Nat)
deriving DecidableEq, Repr, Inhabited

/-- An entry of the in-flight command table (R411). -/
structure Flight where
  /-- Place in the fetch order. -/
  id : Nat
  origin : Origin
  op : Op
  sub : Submission
  phase : Phase
  /-- The references of the bulk tiles in which its buffer waits (R286, R289, R291). -/
  tiles : List (Nat × Nat) := []
  /-- GTC since which it has waited for bulk or handover tiles (R294; reset none). -/
  waitAt : Option Nat := none
deriving DecidableEq, Repr

/-- A prepared change of the hoop table (R61, R190). -/
inductive Edit where
  | form (hoop : Nat) (table : List SeqEntry)
  | edit (hoop : Nat) (table : List SeqEntry)
  | dissolve (hoop : Nat)
  | retire (unit : Nat)
  | restore (unit : Nat)
  | retireMember (hoop : Nat) (member : Nat)
  | restoreMember (hoop : Nat) (member : Nat)
deriving DecidableEq, Repr, Inhabited

/-- A prepared edit with the command it completes and the member handles it was given, which the swap checks again (R62). -/
structure PendingEdit where
  flight : Nat
  edit : Edit
  handles : List Word32
deriving DecidableEq, Repr, Inhabited

/-- A completion entry held for its CQ (R324), with NO_IRQ of its descriptor (R330). -/
structure Completion where
  tag : Nat
  gen : Nat
  sq : Nat
  status : Nat
  handle : Word32
  result : Word32
  noIrq : Bool
  /-- CAP_EST_INVALID of the ramp the command asked for (R84); the manual gives it no place in the entry's bytes (log entry 80). -/
  capInvalid : Bool := false
deriving DecidableEq, Repr, Inhabited

/-- An event as the router holds it for its ring (R329, R376). -/
structure Event where
  gtc : Nat
  source : Nat
  code : Nat
  p0 : Word32
  p1 : Word32
  p2 : Word32
  unsync : Bool
  /-- Events of the ring dropped immediately before this one (R329). -/
  lost : Nat
  /-- The vector signalled after the entry, as the tables stood when the event entered (R380); none without DIRECT_IRQ. -/
  direct : Option Nat := none
deriving DecidableEq, Repr, Inhabited

/-! ## Press -/

/-- Bank pump supervision (R73). -/
structure Pump where
  /-- Reservoir above VDn, mV, as last latched (reset 10,000: in regulation, log entry 3). -/
  margin : Int := 10000
  /-- Time below 8.5 V, below 6.0 V and above 9.0 V, µs (R73; reset 0). -/
  lowUs : Nat := 0
  failUs : Nat := 0
  okUs : Nat := 0
  /-- CP_UV and CP_FAIL (R73; 1 bit each; reset 0). -/
  uv : Bool := false
  fail : Bool := false
  /-- It runs (R439, R442; 1 bit; reset 1): in PARK only that of a bank with a park-kept unit ON. -/
  on : Bool := true
deriving DecidableEq, Repr, Inhabited

/-- The holdup store (R207 to R214). -/
structure Hold where
  /-- STORE_CAP, µF (R210; 32 bits; reset C_NOM). -/
  storeCap : Nat := 0
  /-- STORE_CAP has been estimated since the power-on reset (R210; reset 0). -/
  estimated : Bool := false
  /-- Integrated charge, mA·µs, and the store voltage at which the present stretch began, mV (R210; reset 0). -/
  dq : Rat := 0
  dvFrom : Option Rat := none
  /-- E_rel, mJ (R213; reset 0). -/
  eRel : Rat := 0
  /-- Time the store current has been above -1 % of I_RATED, µs (R213; reset 0). -/
  endUs : Nat := 0
  /-- HOLD_INPUT_LOW has been raised for the present stretch (R209; reset 0). -/
  inputLow : Bool := false
  /-- Charger's current reference, mA (R208; reset 0). -/
  iRef : Rat := 0
deriving DecidableEq, Repr, Inhabited

/-- An event as a producer hands it to the router (R375, R376). -/
structure RawEvent where
  source : Nat
  code : Nat
  p0 : Word32 := 0
  p1 : Word32 := 0
  p2 : Word32 := 0
  /-- Raised by the action of a recipe rule (R422). -/
  byRule : Bool := false
deriving DecidableEq, Repr, Inhabited

/-- The Press and what it drives (R12 to R16, R103 to R142, R60 to R62). -/
structure Press where
  /-- The 71 leaves; an unlisted leaf is at reset (R25). -/
  leaves : Tbl Leaf := []
  /-- The hoop table: formed hoops by number (R60; reset none). -/
  hoops : Tbl Hoop := []
  /-- Current generation of each unit number; unlisted is 1 (R30, R32; 10 bits; reset 1). -/
  gens : Tbl Nat := []
  /-- ROOT's aggregate as last published (R53; reset OFF). -/
  rootSt : UState := .off
  rootMixed : Bool := false
  rootPg : Bool := false
  /-- Prepared edits, in the order of acceptance (R62; reset none). -/
  edits : List PendingEdit := []
  /-- Leaves served by a command in the tick in progress (R341; reset none). -/
  served : List Nat := []
  /-- Bank pumps 0 to 3 (R73). -/
  pumps : Tbl Pump := []
  /-- Shed masks: loss of FEED0 to FEED3, HOLD release (R136; 5 × 8 bits; reset 0). -/
  shedMasks : List Nat := [0, 0, 0, 0, 0]
  /-- The HOLD-release trigger stands (R213; reset 0). -/
  holdTrigger : Bool := false
  hold : Hold := {}
  /-- Seat and mate inputs that are mated: the time for which, µs, saturating at 5,000 (R133; reset: released, log entry 3). -/
  mated : Tbl Nat := []
  /-- Units whose seating is confirmed (R133; reset none). -/
  confirmed : List Nat := []
  /-- XTRIP_L low after its filter (R135; 1 bit; reset 0, log entry 3). -/
  xtripLow : Bool := false
  /-- Escalations that turn feeds off: channels whose ESCALATION 2 stands (R182; reset none); the pull of XTRIP_L follows `diag.esc`. -/
  feedHolds : List Nat := []
  /-- Level of PGOUT0 to PGOUT7, true for released (R126; reset false). -/
  pgout : List Bool := [false, false, false, false, false, false, false, false]
  /-- Time for which each thermistor has been suspect or out of range, µs (R146; reset 0), and those for which NTC_FAULT stands (R146; reset none). -/
  ntcBad : Tbl Nat := []
  ntcFault : List Nat := []
  /-- Events that the present command raises, in the order raised (R375; reset none). -/
  evq : List RawEvent := []
  /-- Events of the tick in progress, in the order raised, until its spare phase (R103, R375; reset none). -/
  tickq : List RawEvent := []
  /-- Events of comparator cells that latched since the last tick boundary, which the Press reads at the next (R23; reset none). -/
  cellq : List RawEvent := []
  /-- A recipe rule's action is being applied (R422; 1 bit; reset 0). -/
  byRule : Bool := false
  /-- Events of verdicts that Rind has still to record, kept while it is in a domain reset (R132, R180; reset none). -/
  unrecordedEvents : List RawEvent := []
  /-- UNIT_STATUS mirror as of the last refresh: four words per unit number (R492; reset as R492 states). -/
  mirror : Tbl (List Word32) := []
  /-- Regulator power cycle of the fallback: time still to run, µs, and the regulators to start (R220; reset none). -/
  regCycle : Option (Nat × List Nat) := none
deriving DecidableEq, Repr, Inhabited

/-! ## Comparators -/

/-- A comparator cell (R265 to R278). -/
structure Cell where
  /-- Present level: on the asserted side (R265; reset as INIT, R277). -/
  level : Bool := false
  /-- Latch (R273; 1 bit; reset as INIT). -/
  latch : Bool := false
  /-- Output reported at the last boundary; none before the first report (R275, R278). -/
  reported : Option Bool := none
  /-- DAC code (R266; 10 bits; reset 0, log entry 3). -/
  code : Nat := 0
  /-- GTC until which the output is held after a code change, or INIT is held after power-up (R268, R278; reset 0). -/
  holdUntil : Nat := 0
  /-- The input went to its asserted side while the cell was blanked: an assertion to be judged at the end of the window (R272; reset 0). -/
  blanked : Bool := false
  /-- The voltage last seen at the cell input, µV, none while it is not known (R265; the model's own field, reset none). -/
  input : Option Int := none
  /-- The two comparisons of a feed reverse cell: the current's, and that of V_FWD (R194, R270; reset 0). -/
  iRev : Bool := false
  vRev : Bool := false
  /-- The DAC check failed (R283; 1 bit; reset 0). -/
  dacFail : Bool := false
deriving DecidableEq, Repr, Inhabited

/-- Edge flags and counter of a privileged cell or of XTRIP_L (R276, R489). -/
structure Edge where
  /-- RISE, FALL (R276; 1 bit each; reset 0). -/
  rise : Bool := false
  fall : Bool := false
  /-- COUNT (R276; 8 bits; reset 0). -/
  count : Nat := 0
deriving DecidableEq, Repr, Inhabited

/-- A window monitor record (R280). -/
structure WmRec where
  src : Nat := 0
  mode : Nat := 2
  hyst : Nat := 3
  initLo : Bool := true
  initHi : Bool := true
  autoClr : Bool := true
  wake : Bool := false
  eventEn : Bool := true
  lower : Nat := 0
  upper : Nat := 0
deriving DecidableEq, Repr, Inhabited

/-- The comparator array. -/
structure Comparators where
  /-- The 344 cells; an unlisted cell is at INIT (R265). -/
  cells : Tbl Cell := []
  /-- STATUS_EDGE0 to STATUS_EDGE8 (R489). -/
  edges : Tbl Edge := []
  /-- Window monitor records 0 to 31; unlisted at reset (R279, R280). -/
  wms : Tbl WmRec := []
  /-- TAP0 to TAP7: cell connected, 0xFFFF for none (R282; 16 bits; reset 0xFFFF, log entry 3). -/
  taps : Tbl Nat := []
  /-- The Press has read the cells since they were powered (R275, R278; reset 0): a cell that nothing has reached since then has its INIT output as reference. -/
  read : Bool := false
  /-- Next cell of Rind's DAC rotation (R283; reset 0). -/
  dacNext : Nat := 0
deriving DecidableEq, Repr, Inhabited

/-! ## Measurement -/

/-- A node as the banks hold it (R228, R234 to R238, R247, R248). -/
structure Node where
  /-- VALUE of the last sample (R235; 16 bits; reset 0, log entry 3). -/
  value : Int := 0
  /-- The sample word as it reached the Press: PLAUS, BANK, QUALITY, SLICE, NODE and VALUE (R13, R235; 32 bits; reset 0, log entry 3). -/
  word : Word32 := 0
  /-- QUALITY of the last sample (R237; reset Suspect, log entry 3). -/
  quality : Quality := .suspect
  /-- GTC of the last sample (R107; reset 0). -/
  at_ : Nat := 0
  /-- VALUE and GTC of the last usable sample (R107; reset none). -/
  held : Option (Int × Nat) := none
  /-- Gain code in force, 0 to 3 for 10 to 80 V/V (R234; 2 bits; reset 0, log entry 3). -/
  gain : Nat := 0
  /-- Consecutive valid samples below 40 % (R234; reset 0). -/
  low : Nat := 0
  /-- GTC until which samples are Settling (R238; reset 0). -/
  settleUntil : Nat := 0
  /-- PLAUS_FAIL stands (R248; 1 bit; reset 0). -/
  plausFail : Bool := false
  /-- Consecutive failed checks (R248; reset 0). -/
  fails : Nat := 0
  /-- Running pair sum and pairs counted (R247; reset 0). -/
  pairSum : Int := 0
  pairs : Nat := 0
  /-- The last sample word of the other bank's conversion in a plausibility pair (R235, R247; 32 bits; reset 0, log entry 3). -/
  checkWord : Word32 := 0
  /-- Reading of the other bank under dual conversion (R248; reset none). -/
  dual : Option Int := none
deriving DecidableEq, Repr, Inhabited

/-- A measurement bank (R227, R240 to R249, R259). -/
structure Bank where
  /-- Reference buffer on, and since which GTC (R240; reset off). -/
  refOn : Bool := false
  refAt : Nat := 0
  /-- REF_READY, REF_FAIL, BANK_FAIL, TAKEOVER (R259; 1 bit each; reset 0). -/
  refReady : Bool := false
  refFail : Bool := false
  bankFail : Bool := false
  takeover : Bool := false
  /-- Released in DOZE by a recipe (R241; reset 0). -/
  released : Bool := false
  /-- Enabled again by a start or an urgent request, until REF_READY (R241; reset 0). -/
  rewake : Bool := false
  /-- OUT_SLICE: slice out of service, 15 for none (R259; 4 bits; reset 10). -/
  outSlice : Nat := 10
  /-- FAILED_SLICES (R259; 11 bits; reset 0). -/
  failed : Nat := 0
  /-- Consecutive conversions of node 233 out of tolerance (R242; reset 0). -/
  refBad : Nat := 0
  /-- Counters of R259, in order: settling, clipped, suspect, checks, fails, swaps, mismatch, urgent, displaced (32 bits; reset 0). -/
  cntSettling : Nat := 0
  cntClipped : Nat := 0
  cntSuspect : Nat := 0
  cntChecks : Nat := 0
  cntFails : Nat := 0
  cntSwaps : Nat := 0
  cntMismatch : Nat := 0
  cntUrgent : Nat := 0
  cntDisplaced : Nat := 0
  /-- GTC of the last calibration of each slice (R246; reset 0). -/
  calAt : Tbl Nat := []
  /-- CAL_BEHIND has been raised (R246; reset 0). -/
  calBehind : Bool := false
  /-- Failed checks of the present rotation: slice and node (R249; reset none), and the GTC at which the rotation began (R247; reset 0). -/
  suspects : List (Nat × Nat) := []
  checksAt : Nat := 0
  /-- GTC of the last spare takeover (R243; reset 0). -/
  rotatedAt : Nat := 0
  /-- Urgent requests queued: the Press's, which come first, and the host's (R250; at most 16 together; reset none). -/
  urgentPress : List Nat := []
  urgent : List Nat := []
  /-- A slice in service that is declared failed, and the shadow conversions left before its replacement takes over (R245; reset none). -/
  repairing : Option (Nat × Nat) := none
deriving DecidableEq, Repr, Inhabited

/-- A user sequence (R251 to R254). -/
structure Sequence where
  bank : Nat
  filter : Nat
  trigKind : Nat
  spacing : Nat
  trigDelay : Nat
  trigArg : Nat
  nodes : List Nat
  /-- Burst running: trigger GTC, start GTC, late start (reset none). -/
  burst : Option (Nat × Nat × Bool) := none
  /-- A trigger taken whose start time has not come: trigger GTC, start GTC and late start (R252, R253). -/
  armed : Option (Nat × Nat × Bool) := none
  /-- Pending latch with its trigger GTC (R253; reset none). -/
  latch : Option Nat := none
  /-- The entry that the burst converts (R252; reset 0). -/
  entry : Nat := 0
  /-- Bursts since STREAM_START (R255; 16 bits; reset 0). -/
  burstNo : Nat := 0
  /-- Suspended by a bank takeover (R242; reset 0). -/
  suspended : Bool := false
  /-- Conversions of the entry in progress, for the filter (R239; reset none): VALUE and quality code. -/
  acc : List (Int × Nat) := []
  /-- Entries whose node a redefinition changed and that have not converted since, and those that have delivered no output since a change of filter
  (R238; reset none). -/
  newNodes : List Nat := []
  newFilter : List Nat := []
deriving DecidableEq, Repr, Inhabited

/-- Words of a stream that were lost: how many, the burst start of the first, and the CAUSE (R255). -/
structure StreamLoss where
  words : Nat := 0
  gtc : Nat := 0
  cause : Nat := 0
deriving DecidableEq, Repr, Inhabited

/-- The payload of a stream tile (R255, R256): its words, none for a tile not begun; the GTC of its TIME record; how many words are not of its GAP and TIME
records, the burst start of the first of them; and what its GAP record reports. -/
structure StreamTile where
  words : List Word32 := []
  at_ : Nat := 0
  data : Nat := 0
  burst : Nat := 0
  gap : StreamLoss := {}
deriving DecidableEq, Repr, Inhabited

/-- A stream on an ST ring (R303, R328, R359, R360). -/
structure Stream where
  seqId : Nat
  /-- Stopped by the device with this cause (R360; reset none). -/
  stopped : Option Nat := none
  /-- PAGE_SEQ of the next page: pages reported since STREAM_START (R328; 32 bits; reset 0). -/
  pages : Nat := 0
  /-- The closed tiles that wait for a page, oldest first, and the tile being filled (R255, R256, R294). -/
  tiles : List StreamTile := []
  filling : StreamTile := {}
  /-- Bytes written to the page in progress, its first GTC, a GAP in it, and the GTC at which its first tile was written. -/
  pageBytes : Nat := 0
  pageGtc : Nat := 0
  pageGap : Bool := false
  pageAt : Nat := 0
  /-- Words of the span in progress that are still to be dropped (R294; reset 0). -/
  dropLeft : Nat := 0
  /-- What was lost before the tile to be opened next, and in tiles that failed their check before the tile to be delivered next (R255, R256, R289, R294). -/
  lost : StreamLoss := {}
  crcLost : StreamLoss := {}
  /-- Words of delivered tiles that GAP records in front of them have moved into the next payload (R255, R328, log entry 97; reset none). -/
  carry : List Word32 := []
deriving DecidableEq, Repr, Inhabited

/-- A capture slot (R262 to R264). -/
structure Capture where
  state : CaptureState := .empty
  nodes : List Nat := []
  trigKind : Nat := 0
  trigUnit : Nat := 0
  trigArg : Nat := 0
  /-- Tiles that its header and rows take (R262, R264; reset 0). -/
  tiles : Nat := 0
  /-- PRE and POST, µs. -/
  pre : Nat := 0
  post : Nat := 0
  /-- What triggered: source and code; and T (R264). -/
  trigSource : Nat := 0
  trigCode : Nat := 0
  trigGtc : Nat := 0
  /-- Row interval of the trigger's power state (R264). -/
  interval : Nat := 400
  firstRow : Nat := 0
  rows : List (List Word16) := []
  /-- The rows before the trigger have been copied (R263; reset 0). -/
  copied : Bool := false
  /-- Rows lost to tiles that failed, and triggers that met the slot while it was filling or held (R263, R264; reset 0). -/
  lostRows : Nat := 0
  ignored : Nat := 0
deriving DecidableEq, Repr, Inhabited

/-- A row of the history (R260): its time and interval, the offset of its first byte in its first tile, the references of the tiles it lies in (R286,
R287), and whether its content was lost (R263, R289). -/
structure HistRow where
  time : Nat
  interval : Nat
  off : Nat
  refs : List (Nat × Nat)
  lost : Bool := false
deriving DecidableEq, Repr, Inhabited

/-- The measurement banks and what they feed. -/
structure Measure where
  nodes : Tbl Node := []
  /-- Banks A (0) and B (1). -/
  banks : Tbl Bank := []
  /-- SEQ0 to SEQ7; unlisted is not defined (R251). -/
  seqs : Tbl Sequence := []
  /-- Streams by ST ring (R359). -/
  streams : Tbl Stream := []
  captures : Tbl Capture := []
  /-- TRIG_OVERRUN of each sequence (R259; 32 bits; reset 0). -/
  overruns : Tbl Nat := []
  /-- History rows held, newest first; their VALUEs lie in the tiles of holder 68 (R260, R261; reset empty). -/
  history : List HistRow := []
  /-- Where the next row begins: the tile being filled and the offset in it (R260; reset none). -/
  histAt : Option (Nat × Nat) := none
  /-- SCOPE 3 offsets re-measured: units (R371; reset none). -/
  offsets : List Nat := []
  /-- A calibration by CAL_RUN is running: banks still to do (R371; reset none). -/
  calRun : List (Nat × Nat) := []
  /-- Failed slices found by the running CAL_RUN: bank A, bank B masks. -/
  calFailA : Nat := 0
  calFailB : Nat := 0
deriving DecidableEq, Repr, Inhabited

/-! ## The Vat -/

/-- A tile tag (R284). -/
structure Tag where
  crc : Word32 := 0
  gen : Nat := 1
  poison : Bool := false
  state : TileState := .free
  holder : Nat := 0
deriving DecidableEq, Repr, Inhabited

/-- A window of a Paste core in the tile permission map (R296). -/
structure Window where
  /-- First tile and count, 1 to 4,096. -/
  first : Nat
  count : Nat
  holder : Nat
  /-- The rights are READ_WRITE. -/
  write : Bool
deriving DecidableEq, Repr, Inhabited

/-- A half of the model retention record (R155, R292): the GTC at which it was written, the leaves as copied, and that it was written at PARK entry (R156). -/
structure RetentionRec where
  at_ : Nat
  leaves : Tbl Leaf
  park : Bool := false
deriving DecidableEq, Repr, Inhabited

/-- The Vat and its management (R284 to R296). -/
structure Vat where
  /-- SRAM content by byte address 512 × tile + offset; unlisted reads 0 (R284, log entry 6). -/
  mem : Mem := []
  /-- Tags by tile; unlisted at reset value (R284). -/
  tags : Tbl Tag := []
  /-- Failed checked reads and VAT_UE of each tile since power-on (R289; reset 0). -/
  fails : Tbl Nat := []
  /-- Bad tiles: content damaged so that a checked read fails (R288; reset none). -/
  bad : List Nat := []
  /-- Patrol cursor (R291; 13 bits; reset 0). -/
  patrolAt : Nat := 0
  /-- Region sizes in tiles: Paste, History, one capture slot (R292; reset 2,048, 2,048, 512), and those the next Paste start takes. -/
  pasteTiles : Nat := 2048
  histTiles : Nat := 2048
  capTiles : Nat := 512
  nextPaste : Nat := 2048
  nextHist : Nat := 2048
  nextCap : Nat := 512
  /-- The references of each holder, by holder ID, oldest first: tile and GEN (R285, R286, R291; reset none). -/
  held : Tbl (List (Nat × Nat)) := []
  /-- Tiles that failed a checked read and that Rind claims and tests once their holder has released them (R289; reset none). -/
  toTest : List Nat := []
  /-- The tile permission map: the windows of each Paste core, at most 32 (R14, R296; reset none). -/
  windows : Tbl (List Window) := []
  /-- Reserve and quota of pool holders, by holder ID, that differ from the defaults (R293). -/
  quotas : Tbl (Nat × Nat) := []
  /-- STATUS_VAT_CE, STATUS_VAT_STALE (R488; 32 bits; reset 0). -/
  ce : Nat := 0
  stale : Nat := 0
  /-- UNLISTED: tiles retired after the list filled (R488; 16 bits; reset 0). -/
  unlisted : Nat := 0
  /-- The halves of the retention record that have been written, by half, and the half written last (R155, R292; reset none, 0). -/
  retained : Tbl RetentionRec := []
  retentionHalf : Nat := 0
deriving DecidableEq, Repr, Inhabited

/-! ## Host link -/

/-- The SETUP block (R310, R486). -/
structure Setup where
  /-- SETUP_CTRL bit 0 ENABLE and bit 1 SMB_PEC_OFF (R486; reset 0). -/
  enable : Bool := false
  pecOff : Bool := false
  /-- Lock state of SETUP_LOCK (R312; reset 0). -/
  locked : Bool := false
  /-- SETUP_DEVICE_ID (R486; 14 bits; reset 0). -/
  deviceId : Nat := 0
  /-- SETUP_HOST_SILENCE, ms (R486; 16 bits; reset 0x01F4). -/
  silence : Nat := 500
  /-- SETUP_RST_BASE (R486; 64 bits, [11:0] zero; reset 0). -/
  rstLo : Word32 := 0
  rstHi : Word32 := 0
  /-- SETUP_DB_BASE (R486; 64 bits, [7:0] zero; reset 0). -/
  dbLo : Word32 := 0
  dbHi : Word32 := 0
  /-- SETUP_POLL_RUN, µs (R486; 10 bits; reset 4). -/
  pollRun : Nat := 4
  /-- SETUP_POLL_DOZE, µs (R486; 17 bits; reset 0x03E8). -/
  pollDoze : Nat := 1000
  /-- SETUP_REJECT_CNT (R486; 32 bits; reset 0). -/
  rejects : Nat := 0
  /-- STATUS_DEVICE SETUP_ERR (R488; 1 bit; reset 0). -/
  err : Bool := false
deriving DecidableEq, Repr, Inhabited

/-- An MSI-X table entry (R495). -/
structure Msix where
  addrLo : Word32 := 0
  addrHi : Word32 := 0
  data : Word32 := 0
  ctrl : Word32 := 1
deriving DecidableEq, Repr, Inhabited

/-- A ring set record in force (R314). -/
structure RingRec where
  kind : Nat := 0
  flags : Nat := 0
  vector : Nat := 0
  cq : Nat := 0
  entries : Nat := 0
  base : Nat := 0
  coalCount : Nat := 0
  coalTime : Nat := 0
deriving DecidableEq, Repr, Inhabited

/-- A ring (R313 to R331). -/
structure Ring where
  cfg : RingRec := {}
  /-- RING_UP, RING_HALT, RING_ERR (R488; 1 bit each; reset 0). -/
  up : Bool := false
  halted : Bool := false
  err : Bool := false
  /-- The device's own index: SQ head, CQ or EV tail, ST head (R316; reset 0), and the phase it writes (R325; reset 1). -/
  index : Nat := 0
  phase : Bool := true
  /-- The host's word as last parsed (R317; reset 0). -/
  host : Nat := 0
  /-- EV_SEQ of the next entry (R329; 32 bits; reset 0). -/
  evSeq : Nat := 0
  /-- Entries written since the last signal, and the GTC of the first of them (R330; reset 0). -/
  coal : Nat := 0
  coalAt : Nat := 0
  /-- ST rings: addresses of the published pages that no stream has used, oldest first (R328; reset none). -/
  pages : List Nat := []
  /-- The ring has been enabled since ENABLE (R380; reset 0). -/
  everUp : Bool := false
deriving DecidableEq, Repr, Inhabited

/-- A pageable transfer that waits for a translation or a page (R298, R299). -/
structure Xfer where
  /-- The flight it belongs to, or none for a stream, and the ST ring of a stream. -/
  flight : Option Nat
  ring : Nat
  addr : Nat
  done : Nat
  /-- The bytes the transfer writes; none for one that reads (R298). -/
  data : List Byte := []
  /-- Stretches of `data` that were lost and are not written: offset and length (R264). -/
  lost : List (Nat × Nat) := []
  /-- The references of the tiles the transfer reads or fills, 512 bytes each (R286, R289). -/
  tiles : List (Nat × Nat) := []
  /-- Outstanding page request group, and the GTC at which it was issued (R298, R303). -/
  prg : Option Nat := none
  prgAt : Nat := 0
  /-- Paused: its page is not present (R298, R299; reset 0). -/
  paused : Bool := false
deriving DecidableEq, Repr, Inhabited

/-- An SPDM response or DOE answer in the mailbox (R335, R336). -/
inductive DoeReply where
  | none
  | discovery (index : Nat) (vendor : Nat) (type : Nat) (next : Nat)
  | version (v : Nat)
  | capabilities (flags : Nat)
  | algorithms (asym : Word32) (hash : Word32)
  | digests (mask : Nat) (digest : List Byte)
  | certificate (slot : Nat) (portion : List Byte) (remainder : Nat)
  | challengeAuth (slot : Nat) (nonce : List Byte) (signature : List Byte)
  | measurements (total : Nat) (blocks : List (Nat × List Byte)) (nonce : List Byte) (signature : List Byte)
  | error (code : Nat)
deriving DecidableEq, Repr, Inhabited

/-- The host link (R305 to R334). -/
structure Link where
  /-- Link in L0; speed and width codes (R306, R488; reset down). -/
  up : Bool := false
  speed : Nat := 0
  width : Nat := 0
  /-- What the link trained to before DOZE or a brownout lowered it (R307, R451). -/
  fullSpeed : Nat := 0
  fullWidth : Nat := 0
  /-- PERST_L is low (R309; reset: asserted, log entry 3). -/
  perst : Bool := true
  /-- Configuration space: ATS enabled, PRI enabled, PTM enabled (R297, R299, R385; reset 0). -/
  ats : Bool := false
  pri : Bool := false
  ptm : Bool := false
  /-- The rest of the configuration space that the host sets, and the power state D3hot (R305, R307; reset D0). -/
  cfg : LinkConfig := {}
  d3hot : Bool := false
  setup : Setup := {}
  /-- MSI-X table and PBA (R495). -/
  msix : Tbl Msix := []
  pba : List Nat := []
  /-- Rings by ring set index (R313). -/
  rings : Tbl Ring := []
  /-- RINGS_UP (R488; 1 bit; reset 0). -/
  ringsUp : Bool := false
  /-- DB_GEN of the last parsed block, whether one further parse is due, RST_GEN last seen (R317, R318; reset 0). -/
  dbGen : Option Word32 := none
  parseAgain : Bool := false
  rstGen : Option Word32 := none
  /-- The ring set table is to be read (R315; reset 0). -/
  tableDue : Bool := false
  /-- GTC counts for which polling has run since DB_GEN last changed, or since ENABLE, and the timeout in ms as last taken from SETUP_HOST_SILENCE (R311, R332;
  reset 0, 500). -/
  silent : Nat := 0
  silenceMs : Nat := 500
  /-- GTC of the next poll of the doorbell block, and that the last read failed (R311, R318, R333; reset 0). -/
  pollDue : Nat := 0
  pollFails : Bool := false
  /-- GTC from which the 30 s allowance of R332 runs; none before Paste starts, or once it has run out; and that the first start of Paste begins it. -/
  allowAt : Option Nat := none
  allowDue : Bool := false
  /-- HOST_LOST, the GTC of its entry, DB_GEN at entry, regulator cycles made (R333, R334; reset 0). -/
  hostLost : Bool := false
  hostLostAt : Nat := 0
  lostGen : Option Word32 := none
  regCycles : Nat := 0
  /-- GTC at which the regulators restarted in this episode (R333; reset none). -/
  regRestartAt : Option Nat := none
  /-- Tags in use, key 4096 × SQ + tag, with the generation of the occupant (R322; reset none). -/
  tagsBusy : Tbl Nat := []
  /-- Last accepted generation of each tag (R322; reset none). -/
  tagGens : Tbl Nat := []
  /-- The in-flight command table, in fetch order (R411; reset none). -/
  flights : List Flight := []
  /-- Next place in the fetch order (reset 0; the model's own count). -/
  nextFlight : Nat := 0
  /-- Completions held by CQ, oldest first (R326, R316; reset none). -/
  cqHeld : Tbl (List Completion) := []
  /-- Completion SEQ of each CQ (R324; 16 bits; reset 0). -/
  cqSeq : Tbl Nat := []
  /-- Entries staged for each event ring, oldest first: closed tiles, and the tile being filled with the GTC of its first entry (R378). -/
  evHeld : Tbl (List (List Event)) := []
  evOpen : Tbl (List Event) := []
  evOpenAt : Tbl Nat := []
  /-- Losses of each event ring not yet reported (R329, R381; reset 0). -/
  evLost : Tbl Nat := []
  /-- Paused pageable transfers, and the next number for one, the model's own count (R298; reset none). -/
  xfers : Tbl Xfer := []
  nextXfer : Nat := 0
  /-- Where the turn of the SQs with SAFETY set, and of the others, stands: the lowest index served next (R321; reset 0). -/
  turnSafety : Nat := 0
  turnOther : Nat := 0
  /-- Next page request group index, and whether a Response Failure has stopped page requests (R298, R299, R303; 9 bits; reset 0). -/
  nextPrg : Nat := 0
  priStopped : Bool := false
  /-- Indices outstanding on the link (R303). -/
  prgs : List Nat := []
  /-- Translation cache: page address and span (R297; 256 entries; reset empty). -/
  atc : List (Nat × Nat) := []
  /-- STATUS_DMA_PRG_LATE (R488; 32 bits; reset 0). -/
  prgLate : Nat := 0
  /-- What the device has written to host memory, by byte address. -/
  hostMem : Mem := []
  /-- The answer standing in the DOE mailbox (R335; reset none). -/
  doe : DoeReply := .none
deriving DecidableEq, Repr, Inhabited

/-! ## Event router and time -/

/-- The event router (R373 to R381, R488 to R491). -/
structure Router where
  /-- EVENT_VEC_MAP entries (R379; 8 bits each; reset 0x00). -/
  vecMap : Tbl Byte := []
  /-- EVENT_RATE entries (R380; 16 bits each; reset 0x9004). -/
  rate : Tbl Word16 := []
  /-- Tokens of each source; unlisted is a full bucket of the reset depth (R381; reset 16). -/
  tokens : Tbl Nat := []
  /-- GTC at which each source's refill timer last restarted (R381, R491; reset 0). -/
  refillAt : Tbl Nat := []
  /-- STATUS_EVT_DROP (R490; 16 bits each; reset 0). -/
  drops : Tbl Nat := []
  /-- STATUS_EVT_UNROUTED (R488; 32 bits; reset 0). -/
  unrouted : Nat := 0
  /-- The last stamp given (R375, R376; 64 bits; reset 0). -/
  lastStamp : Nat := 0
deriving DecidableEq, Repr, Inhabited

/-- The TIME block and the discipline (R382 to R388, R487). -/
structure Time where
  /-- GTC (R382; 64 bits; reset 0). -/
  gtc : Nat := 0
  /-- TIME_GTC_HI as latched (R487; 32 bits; reset 0). -/
  hiLatch : Nat := 0
  /-- TIME_PTM_CTRL: AUTO (reset 1) and INTERVAL, ms (reset 0x0064) (R487). -/
  auto : Bool := true
  interval : Nat := 100
  /-- TIME_LATE_TOL, µs (R487; 20 bits; reset 0x64). -/
  lateTol : Nat := 100
  /-- TIME_STEP_LIMIT (R487; 19 bits; reset 0xFA0). -/
  stepLimit : Nat := 4000
  /-- TIME_STATUS: SYNCED, SLEWING, TRIM_AT_LIMIT, STEP_COUNT (R487; reset 0). -/
  synced : Bool := false
  slewing : Bool := false
  trimAtLimit : Bool := false
  stepCount : Nat := 0
  /-- TIME_LAST_CORR (R487; 32 bits signed; reset 0). -/
  lastCorr : Int := 0
  /-- TIME_TRIM, 0.01 ppm (R487; signed; reset 0), and the rate value it returns to (R388). -/
  trim : Int := 0
  rateTrim : Int := 0
  /-- A dialogue is running since this GTC (R385; reset none). -/
  dialogue : Option Nat := none
  /-- GTC of the last dialogue begun, and of the last that succeeded (R385, R388; reset 0). -/
  dialogueAt : Nat := 0
  goodAt : Nat := 0
  /-- Error still to be slewed away, in 10⁻⁸ GTC ticks (R386; reset 0). -/
  slewLeft : Int := 0
  /-- GTC ticks of real time counted toward the next second of OPSEC (R398; reset 0). -/
  subsec : Nat := 0
  /-- STATUS_MIRROR_SEQ (R488; 32 bits; reset 0), and GTC at which the mirror is next due (R494). -/
  mirrorSeq : Nat := 0
  mirrorDue : Nat := 0
deriving DecidableEq, Repr, Inhabited

/-! ## Non-volatile memories, the Cave, firmware -/

/-- A Cave record (R395); its CRC is computed from the other words when it is programmed. -/
structure CaveRec where
  seq : Nat
  source : Nat
  code : Nat
  opsec : Nat
  subsec : Nat
  cycle : Nat
  p0 : Word32
  p1 : Word32
  p2 : Word32
  rept : Nat
  /-- The CRC matches (R396). -/
  valid : Bool := true
deriving DecidableEq, Repr, Inhabited

/-- A page of the Cave ring that has failed (R408): its number, the SEQ of the record that failed, the size of the bad-page map after it, the failures with no
record programmed between, and that it has made the Cave DEGRADED. -/
structure PageFault where
  page : Nat
  seq : Nat
  bad : Nat
  run : Nat
  lost : Bool
deriving DecidableEq, Repr, Inhabited

/-- The Cave (R395 to R409). -/
structure Cave where
  /-- Cave mode (R408; reset NORMAL, log entry 3). -/
  mode : CaveMode := .normal
  /-- Records held in the NVM-A ring, oldest first, with the page each lies in (R397; at manufacture none). -/
  ring : List (Nat × CaveRec) := []
  /-- Page being filled and records in it (R397; at manufacture 0). -/
  page : Nat := 0
  inPage : Nat := 0
  /-- SEQ of the next record (R397; 32 bits; at manufacture 1). -/
  nextSeq : Nat := 1
  /-- The open record and the GTC-like time of real time at which its window ends (R402; reset none). -/
  open_ : Option CaveRec := none
  openEnd : Nat := 0
  /-- Records staged while Rind cannot program, oldest first (R401, R451; reset none), and those that did not fit. -/
  staged : List CaveRec := []
  overflow : Nat := 0
  /-- Failsafe slot 0 and the ring of slots 1 to 63, oldest first (R407; at manufacture empty). -/
  failsafe0 : Option CaveRec := none
  failsafe : List CaveRec := []
  /-- The VOLATILE ring of staging tiles (R408; reset none). -/
  volatileRing : List CaveRec := []
  /-- Bad-page map (R407; at most 64; at manufacture empty). -/
  badPages : List Nat := []
  /-- CAVE_EVER_VOLATILE fuse (R407; 1 bit; at manufacture 0). -/
  everVolatile : Bool := false
  /-- Page failures with no successful program between (R408; reset 0). -/
  failRun : Nat := 0
  /-- Page failures whose LOG_MEM_FAULT is still to be written and raised (R408, R515; reset none). -/
  faultsDue : List PageFault := []
  /-- Erase counts of the 64 Cave pages (R515; at manufacture 0). -/
  erases : Tbl Nat := []
  /-- CAVE_REPEAT_WIN, ms (R402; reset 1,000). -/
  repeatWin : Nat := 1000
  /-- A clear is being committed (R406; reset 0). -/
  clearing : Bool := false
deriving DecidableEq, Repr, Inhabited

/-- A firmware image's header (R415). -/
structure ImageInfo where
  keySlot : Nat := 0
  revokeBelow : Bool := false
  totalLen : Nat := 0
  version : Nat := 0
  minVersion : Nat := 0
  loadTiles : Nat := 0
  workTiles : Nat := 0
  handoverVersion : Nat := 0
  handoverMin : Nat := 0
  digest : List Byte := []
deriving DecidableEq, Repr, Inhabited

/-- An image slot of NVM-A (R416). -/
structure ImageSlot where
  bytes : Mem := []
  /-- The verified image, none while the slot is not verified. -/
  verified : Option ImageInfo := none
  /-- Highest byte staged plus one. -/
  staged : Nat := 0
  /-- Its contents have changed since they were last started as the selected image (R414, R418; reset 0: what stands at manufacture is no new image). -/
  fresh : Bool := false
deriving DecidableEq, Repr, Inhabited

/-- A lock record (R181). -/
structure LockRec where
  unit : Nat
  kind : LockKind
  verdict : Nat
  esc : Nat
  seq : Nat
  opsec : Nat
  /-- Its CRC is right (R181). -/
  valid : Bool := true
deriving DecidableEq, Repr, Inhabited

/-- A recipe rule (R422). -/
structure Rule where
  code : Nat
  source : Nat
  action : Nat
  unit : Nat
  delay : Nat
deriving DecidableEq, Repr, Inhabited

/-- A recipe, parsed (R421). -/
structure Recipe where
  profileId : Nat := 0
  version : Nat := 0
  minVersion : Nat := 0
  regions : Option (Nat × Nat × Nat × Nat) := none
  quotas : List (Nat × Nat × Nat) := []
  pgout : Option (List Nat) := none
  windows : List (Nat × WmRec × Bool) := []
  settings : List (Nat × Nat × Word32) := []
  rules : List Rule := []
  repeatWin : Option Nat := none
  refRelease : Nat := 0
  digest : List Byte := []
deriving DecidableEq, Repr, Inhabited

/-- The non-volatile memories and fuses other than the Cave (R166, R181, R400, R412 to R416, R444, R516). What they hold at
manufacture is log entry 4. -/
structure Nvm where
  /-- Profile slots and the selector (R166). -/
  profile0 : List Byte := []
  profile1 : List Byte := []
  profileSel : Nat := 0
  /-- Recipe slots and the selector; none selected at manufacture (R423). -/
  recipe0 : List Byte := []
  recipe1 : List Byte := []
  recipeSel : Nat := 0
  /-- Image slots and selectors (R416, R418). -/
  rind0 : ImageSlot := {}
  rind1 : ImageSlot := {}
  rindSel : Nat := 0
  paste0 : ImageSlot := {}
  paste1 : ImageSlot := {}
  pasteSel : Nat := 0
  /-- MAKER_KEY_HASH; none while blank (R413). -/
  makerKey : Option (List Byte) := none
  /-- RIND_FLOOR, PASTE_FLOOR, PROFILE_FLOOR, RECIPE_FLOOR (R414; 32 bits each). -/
  rindFloor : Nat := 0
  pasteFloor : Nat := 0
  profileFloor : Nat := 0
  recipeFloor : Nat := 0
  /-- Revocation fuses: slots below this number are revoked (R412). -/
  revokedBelow : Nat := 0
  /-- Lock records: active half, and the other half (R181; 128 each). -/
  locks : List LockRec := []
  locksOld : List LockRec := []
  /-- The 16 operating-counter slots, 16 bytes each; unlisted is erased (R400; at manufacture all erased). -/
  counters : Tbl (List Byte) := []
  /-- V_WARN, mV, and WAKE_TIMER, s (R444; defaults 6,000 and 0). -/
  vWarn : Nat := 6000
  wakeTimer : Nat := 0
  /-- Retired tile list (R290; at most 128). -/
  retiredTiles : List Nat := []
  /-- Slices of banks A and B recorded in the calibration region as replaced, bit per slice (R245; 11 bits each; at manufacture 0). -/
  failedA : Nat := 0
  failedB : Nat := 0
  /-- Refresh record: OPSEC at which the pass began, and the page it is at, 2,304 once it has ended (R516). -/
  refreshOpsec : Nat := 0
  refreshCursor : Nat := 2304
deriving DecidableEq, Repr, Inhabited

/-- Rind, Paste and the debug port (R411 to R434). -/
structure Firmware where
  rind : RindState := .inReset
  paste : PasteState := .stopped
  /-- Slots running (R485). -/
  rindSlot : Nat := 0
  pasteSlot : Nat := 0
  /-- The profile in force (R226, R485). -/
  profile : Option Profile := none
  profileSlot : Nat := 0
  /-- The recipe in force (R423, R485). -/
  recipe : Option Recipe := none
  recipeSlot : Nat := 0
  /-- OPSEC of the Rind domain resets of the last hour (R432; reset none). -/
  rindResets : List Nat := []
  /-- SAFE_HOLD (R432; 1 bit; reset 0). -/
  safeHold : Bool := false
  /-- OPSEC of the Paste restarts of the last 600 s (R426; reset none), and whether the other slot has been tried in this span,
  which a switch to it opens at its OPSEC. -/
  pasteRestarts : List Nat := []
  otherTried : Bool := false
  switchedAt : Nat := 0
  /-- The running Paste is within 2 s of a boot start or a handover, which its self-check ends (R426, R428; reset 0). -/
  selfCheckDue : Bool := false
  /-- The handover or rollback that runs: flight, and the slot it goes to (R428; reset none). -/
  handover : Option (Nat × Nat) := none
  /-- Debug unlock: SCOPE and EXPIRY (R434; reset none); refusals since power-on (reset 0). -/
  debug : Option (Nat × Nat) := none
  debugRefusals : Nat := 0
  /-- CHALLENGE of the debug port (R433; 64 bits; reset 0, log entry 3; POWER_ON_RESET and every token draw a free value). -/
  nonce : Nat := 0
  /-- GTC at which the running Paste started (R426; reset 0). -/
  pasteAt : Nat := 0
  /-- GTC at which the gap of the running handover ends (R428; reset 0). -/
  gapEnd : Nat := 0
  /-- A self-check has passed and its NVM-B record waits for the end of a brownout warning (R430; reset 0). -/
  commitDue : Bool := false
  /-- A Paste restart that waits for Rind's return: its cause (R430; reset none). -/
  restartDue : Option Nat := none
  /-- Paste cores that were found stalled at the last heartbeat check (R424; reset none). -/
  stalled : List Nat := []
  /-- CLKSEL, straps and ADDR as sampled (R435, R226, R463; reset 0). -/
  clkRef : Bool := false
  strap0 : Nat := 0
  strap1 : Nat := 0
  addrCode : Nat := 0
deriving DecidableEq, Repr, Inhabited

/-- Power states and the always-on domain (R435 to R457). -/
structure Power where
  mode : PowerMode := .run
  /-- The device is held in reset or has not booted (R418; reset 1). -/
  booting : Bool := true
  /-- Change between RUN and DOZE that waits for its boundary (R383; reset none). -/
  next : Option PowerMode := none
  /-- Park pending (R442; 1 bit; reset 0). -/
  parkPending : Bool := false
  /-- Clock-failure flag and condition (R18; reset 0). -/
  clockFail : Bool := false
  clockFlag : Bool := false
  /-- Brownout warning stands (R451; reset 0). -/
  brownout : Bool := false
  /-- Reset cause: 0 power-on, 1 supply reset, 2 RST_L (R488; reset 0). -/
  resetCause : Nat := 0
  /-- Code of the last wake (R488; 8 bits; reset 0). -/
  wakeSource : Nat := 0
  /-- WAKE_L asserted (R447; reset 0). -/
  wakeL : Bool := false
  /-- OPSEC (R398; 32 bits) and CYCLE (R399; 24 bits): restored at boot. -/
  opsec : Nat := 0
  cycle : Nat := 0
  /-- OPSEC of the last operating-counter write (R400; reset 0), and of the last page refreshed (R516; reset 0). -/
  ctrAt : Nat := 0
  refreshAt : Nat := 0
deriving DecidableEq, Repr, Inhabited

/-! ## Two-wire bus -/

/-- What the device answers in a two-wire transaction. -/
inductive BusReply where
  | none
  | data (bytes : List Byte)
  | ack
  | nackAddress
  | nackCode
  | nackData
  | nackPec
  | discarded
deriving DecidableEq, Repr, Inhabited

/-- The set of pointers and the RESULT of one address class (R464, R469, R470, R472). -/
structure BusClassState where
  /-- Unit pointer (R469; 8 bits; reset 0, log entry 3). -/
  unit : Nat := 0
  /-- Cave pointer: next SEQ and flags (R470; reset 0, log entry 3). -/
  cavePtr : Nat := 0
  caveFlags : Nat := 0
  /-- RESULT: SEQ, STATE, STATUS, RESULT (R472; reset 0). -/
  rSeq : Nat := 0
  rState : Nat := 0
  rStatus : Nat := 0
  rResult : Word32 := 0
deriving DecidableEq, Repr, Inhabited

/-- A bulk session (R474). -/
structure Bulk where
  kind : Nat
  total : Nat
  bytes : List Byte
  /-- GTC of the last chunk. -/
  at_ : Nat
  /-- The references of the bulk tiles that hold the bytes of a session of KIND 0 (R286, R291, R474). -/
  tiles : List (Nat × Nat) := []
deriving DecidableEq, Repr, Inhabited

/-- An action command whose write to the non-volatile memories waits for the end of a brownout warning (R451, R475). -/
inductive BusHeld where
  | settings (vWarn wakeTimer : Nat)
  | chunk (bytes : List Byte)
  | commit
deriving DecidableEq, Repr, Inhabited

/-- The two-wire interface (R458 to R481). -/
structure Bus where
  mgmt : BusClassState := {}
  diag : BusClassState := {}
  /-- The answer to the last transaction. -/
  reply : BusReply := .none
  /-- NOTIFY_MASK (R476; 16 bits; reset 0). -/
  notifyMask : Word16 := 0
  /-- Latched bits of the status word (R476; 16 bits; reset 0). -/
  latched : Word16 := 0
  /-- Levels of the status word as last seen, for their rises (R476; reset 0). -/
  levels : Word16 := 0
  /-- A Host Notify is due (R477; reset 0), the attempts lost, and the GTC before which none is made (R478). -/
  notifyDue : Bool := false
  attempts : Nat := 0
  backoffUntil : Nat := 0
  /-- The last Host Notify sent: address byte and status word (R477). -/
  notified : Option (Byte × Word16) := none
  /-- (status word AND NOTIFY_MASK) as last seen (R477; reset 0). -/
  maskedSeen : Word16 := 0
  /-- The bulk session (R474; reset none). -/
  bulk : Option Bulk := none
  /-- An action command of the management class that waits for the end of a brownout warning (R451; reset none). -/
  held : Option BusHeld := none
  /-- STATUS_SMB_PEC_ERR (R488; 32 bits; reset 0). -/
  pecErr : Nat := 0
  /-- GTC before which bus-hang recovery is not tried again (R479; reset 0). -/
  hangUntil : Nat := 0
deriving DecidableEq, Repr, Inhabited

end Sys2Proof.Machine
end

