-- ==== Sys2Proof/Machine/State.lean ====
section
/-!
DEFINITION. Machine/State.lean: the state of the block, its stops, and the state after reset.
-/

namespace Sys2Proof.Machine

/-- Stops that stand for an access to an address that does not exist. Safe: the machine stops where the device sees nothing. -/
inductive Fault where
  /-- A BAR0 access outside the 64 KiB of BAR0 (R305). Raised by `execBar0Write`. Safe. -/
  | outsideBar0 (offset : Nat)
deriving DecidableEq, Repr

/-- Refusals. -/
inductive Refusal where
  /-- A command that has no meaning yet. Raised by `exec` alone. Safe. -/
  | notModelled (mnemonic : String)
deriving DecidableEq, Repr

/-- The state of the block. -/
structure State where
  press : Press := {}
  cmp : Comparators := {}
  meas : Measure := {}
  vat : Vat := {}
  link : Link := {}
  router : Router := {}
  time : Time := {}
  cave : Cave := {}
  nvm : Nvm := {}
  fw : Firmware := {}
  power : Power := {}
  bus : Bus := {}
  /-- How many free choices have been drawn (log entry 5; the model's own field; reset 0). -/
  draws : Nat := 0
  /-- The commands that wait, first in, first out (the model's own field; reset none). -/
  pending : List Instr := []
deriving DecidableEq, Repr

/-- The Rind image an untouched part holds in slot 0 (log entry 4). -/
def factoryRind : ImageInfo := { version := 1, loadTiles := 128, workTiles := 16, digest := Config.factoryDigest 0 }

/-- The Paste image an untouched part holds in slot 0 (log entry 4). -/
def factoryPaste : ImageInfo :=
  { version := 1, loadTiles := 256, workTiles := 256, handoverVersion := 1, handoverMin := 1, digest := Config.factoryDigest 1 }

/-- The non-volatile memories of a part that nothing has been loaded into (log entry 4). -/
def factoryNvm : Nvm :=
  { rind0 := { verified := some factoryRind }, paste0 := { verified := some factoryPaste } }

/-- The block right after the power-on reset, held before BOOT (R457); the NVM is that of log entry 4. -/
def State.reset : State := { nvm := factoryNvm }

namespace State

def onPress (s : State) (f : Press → Press) : State := { s with press := f s.press }
def onCmp (s : State) (f : Comparators → Comparators) : State := { s with cmp := f s.cmp }
def onMeas (s : State) (f : Measure → Measure) : State := { s with meas := f s.meas }
def onVat (s : State) (f : Vat → Vat) : State := { s with vat := f s.vat }
def onLink (s : State) (f : Link → Link) : State := { s with link := f s.link }
def onRouter (s : State) (f : Router → Router) : State := { s with router := f s.router }
def onTime (s : State) (f : Time → Time) : State := { s with time := f s.time }
def onCave (s : State) (f : Cave → Cave) : State := { s with cave := f s.cave }
def onNvm (s : State) (f : Nvm → Nvm) : State := { s with nvm := f s.nvm }
def onFw (s : State) (f : Firmware → Firmware) : State := { s with fw := f s.fw }
def onPower (s : State) (f : Power → Power) : State := { s with power := f s.power }
def onBus (s : State) (f : Bus → Bus) : State := { s with bus := f s.bus }

end State

end Sys2Proof.Machine
end

