-- ==== Sys2Proof/Machine/Operands.lean ====
section
/-!
DEFINITION. Machine/Operands.lean: reading the fields of descriptors, buffers, handles and register writes, and writing them.
-/

namespace Sys2Proof.Machine

/-- Byte `i` of a byte string, 0 beyond its end. -/
def byteAt (bs : List Byte) (i : Nat) : Nat := (bs.getD i 0).toNat

/-- The unsigned value of `n` little-endian bytes from byte `i` on (R5). -/
def leAt (bs : List Byte) (i : Nat) : Nat → Nat
  | 0 => 0
  | n + 1 => byteAt bs i + 256 * leAt bs (i + 1) n

/-- The unsigned value of `n` big-endian bytes from byte `i` on (R164). -/
def beAt (bs : List Byte) (i : Nat) : Nat → Nat
  | 0 => 0
  | n + 1 => byteAt bs i * 256 ^ n + beAt bs (i + 1) n

/-- `v`, read as an unsigned number of `bits` bits, as a signed one. -/
def signed (bits v : Nat) : Int := if v < 2 ^ (bits - 1) then v else (v : Int) - 2 ^ bits

/-- `n` little-endian bytes of a number (R5). -/
def toLe (v : Nat) : Nat → List Byte
  | 0 => []
  | n + 1 => BitVec.ofNat 8 v :: toLe (v / 256) n

/-- Bits `hi` to `lo` of a number. -/
def bits (v hi lo : Nat) : Nat := v / 2 ^ lo % 2 ^ (hi - lo + 1)

/-- Bit `k` of a number. -/
def bit (v k : Nat) : Bool := v.testBit k

/-- 1 for true, 0 for false. -/
def ofB (b : Bool) : Nat := if b then 1 else 0

/-- A 32-bit word from a number, modulo 2³². -/
def w32 (n : Nat) : Word32 := BitVec.ofNat 32 n

/-- A 32-bit word from a signed number, in two's complement. -/
def w32i (n : Int) : Word32 := BitVec.ofInt 32 n

/-- `x` held within `lo` to `hi`. -/
def clampI (lo hi x : Int) : Int := if x < lo then lo else if hi < x then hi else x

/-- `x` saturating at `hi`. -/
def satN (hi x : Nat) : Nat := if hi < x then hi else x

/-- `n` bytes from byte `i` on, zeros beyond the end. -/
def slice (bs : List Byte) (i n : Nat) : List Byte := (List.range n).map fun k => bs.getD (i + k) 0

/-- ARGS by the byte numbers of the descriptor, which count from 28 (R320). -/
def arg (sub : Submission) (at_ n : Nat) : Nat := leAt sub.args (at_ - 28) n

/-- FLAGS bit `k` of a submission (R344). -/
def flag (sub : Submission) (k : Nat) : Bool := sub.flags.toNat.testBit k

/-! ## Handles (R27) -/

/-- DEVICE_ID, bits [31:18] of a handle (R27). -/
def handleDev (h : Word32) : Nat := bits h.toNat 31 18

/-- UNIT, bits [17:10] of a handle (R27). -/
def handleUnit (h : Word32) : Nat := bits h.toNat 17 10

/-- GEN, bits [9:0] of a handle (R27). -/
def handleGen (h : Word32) : Nat := bits h.toNat 9 0

/-- The handle of a unit (R27). -/
def mkHandle (dev unit gen : Nat) : Word32 := w32 (dev % 16384 * 262144 + unit % 256 * 1024 + gen % 1024)

/-! ## Submission descriptors (R320) -/

/-- A submission from the 64 bytes of its descriptor (R320), fetched from ring `sq` with the buffer content `data`. -/
def parseSub (sq : Nat) (raw data : List Byte) : Submission :=
  { sq := sq, flags := raw.getD 1 0, tag := leAt raw 2 2 % 4096, gen := leAt raw 2 2 / 4096,
    handle := w32 (leAt raw 4 4), time := leAt raw 8 8, bufAddr := leAt raw 16 8, bufLen := leAt raw 24 4,
    args := slice raw 28 36, data := data }

/-- The 64 bytes of a descriptor (R320). -/
def encodeSub (opcode : Nat) (d : Submission) : List Byte :=
  BitVec.ofNat 8 opcode :: d.flags :: toLe (d.tag + 4096 * d.gen) 2 ++ toLe d.handle.toNat 4 ++ toLe d.time 8
    ++ toLe d.bufAddr 8 ++ toLe d.bufLen 4 ++ slice d.args 0 36

end Sys2Proof.Machine
end

