-- ==== Sys2Proof/Machine/Flags.lean ====
section
/-!
DEFINITION. Machine/Flags.lean: the numbers the manual gives names: status codes, event codes, sources, opcodes, field IDs, and the
fixed facts about unit numbers and nodes.
-/

namespace Sys2Proof.Machine

/-! ## Completion status (R337) -/

abbrev stOk : Nat := 0
abbrev stAborted : Nat := 1
abbrev stStaleHandle : Nat := 2
abbrev stTagBusy : Nat := 3
abbrev stEnvelope : Nat := 4
abbrev stState : Nat := 5
abbrev stPreflight : Nat := 6
abbrev stSeat : Nat := 7
abbrev stLate : Nat := 8
abbrev stFwRestart : Nat := 9
abbrev stXlate : Nat := 10
abbrev stTileCrc : Nat := 11
abbrev stAuth : Nat := 12
abbrev stBusy : Nat := 13
abbrev stRange : Nat := 14
abbrev stUnsupported : Nat := 15
abbrev stMember : Nat := 16
abbrev stWrongDevice : Nat := 17
abbrev stRingFault : Nat := 18

/-! ## Event codes (R410) -/

abbrev evTrip : Nat := 0x0101
abbrev evLimitEnter : Nat := 0x0102
abbrev evLimitExit : Nat := 0x0103
abbrev evRampStall : Nat := 0x0104
abbrev evRampDone : Nat := 0x0105
abbrev evPgChange : Nat := 0x0106
abbrev evRetry : Nat := 0x0107
abbrev evLock : Nat := 0x0108
abbrev evSeatConfirm : Nat := 0x0109
abbrev evSeatRelease : Nat := 0x010A
abbrev evXtripOff : Nat := 0x010B
abbrev evShed : Nat := 0x010C
abbrev evCpUv : Nat := 0x010D
abbrev evCpFail : Nat := 0x010E
abbrev evPreflightRefuse : Nat := 0x010F
abbrev evLedgerOver : Nat := 0x0110
abbrev evNtcFault : Nat := 0x0111
abbrev evHoopState : Nat := 0x0112
abbrev evSeqAbort : Nat := 0x0113
abbrev evMemberTrack : Nat := 0x0114
abbrev evBackfeed : Nat := 0x0201
abbrev evGateLow : Nat := 0x0202
abbrev evMemberDamage : Nat := 0x0203
abbrev evUncontrollable : Nat := 0x0204
abbrev evImbalanceFast : Nat := 0x0205
abbrev evImbalance : Nat := 0x0206
abbrev evMemberRetired : Nat := 0x0207
abbrev evFeedReverse : Nat := 0x0301
abbrev evFeedVinOv : Nat := 0x0302
abbrev evHoldInputLow : Nat := 0x0303
abbrev evHoldCapDrift : Nat := 0x0304
abbrev evHoldRelease : Nat := 0x0305
abbrev evHoldReleaseCap : Nat := 0x0306
abbrev evRegOv : Nat := 0x0307
abbrev evCmpChange : Nat := 0x0401
abbrev evCmpDacFail : Nat := 0x0402
abbrev evMeasRefRefused : Nat := 0x0403
abbrev evBankFail : Nat := 0x0404
abbrev evSliceMismatch : Nat := 0x0405
abbrev evSliceRepaired : Nat := 0x0406
abbrev evCalBehind : Nat := 0x0407
abbrev evPlausFail : Nat := 0x0408
abbrev evSeqSuspended : Nat := 0x0409
abbrev evCaptureDone : Nat := 0x040A
abbrev evVatUe : Nat := 0x0501
abbrev evVatCrcFail : Nat := 0x0502
abbrev evTileRetired : Nat := 0x0503
abbrev evVatRetireListFull : Nat := 0x0504
abbrev evStreamFault : Nat := 0x0505
abbrev evDmaFault : Nat := 0x0506
abbrev evSetupReject : Nat := 0x0507
abbrev evRingConfigErr : Nat := 0x0508
abbrev evDbInvalid : Nat := 0x0509
abbrev evRingHalt : Nat := 0x050A
abbrev evHostLost : Nat := 0x050B
abbrev evHostBack : Nat := 0x050C
abbrev evProfileReject : Nat := 0x0601
abbrev evProfileApplied : Nat := 0x0602
abbrev evProfileSlotFallback : Nat := 0x0603
abbrev evFwActivated : Nat := 0x0604
abbrev evFwRolledBack : Nat := 0x0605
abbrev evPasteFault : Nat := 0x0606
abbrev evPasteRestart : Nat := 0x0607
abbrev evRindReset : Nat := 0x0608
abbrev evSafeHold : Nat := 0x0609
abbrev evSecurity : Nat := 0x060A
abbrev evPowerUp : Nat := 0x0701
abbrev evClockFail : Nat := 0x0702
abbrev evBrownoutWarn : Nat := 0x0703
abbrev evPowerState : Nat := 0x0704
abbrev evXtripChange : Nat := 0x0705
abbrev evPtmFail : Nat := 0x0706
abbrev evTimeStep : Nat := 0x0707
abbrev evTimeUnsync : Nat := 0x0708
abbrev evBusStuck : Nat := 0x0709
abbrev evNotifyDropped : Nat := 0x070A
abbrev evClear : Nat := 0x0801
abbrev evLogMemFault : Nat := 0x0802
abbrev evCaveMode : Nat := 0x0803
abbrev evStagingOverflow : Nat := 0x0804

/-- Recording classes of event codes (R401, R410). -/
inductive CaveClass where
  | coalesce
  | single
  | none
deriving DecidableEq, Repr

/-- The Cave column of R410. -/
def caveClass (code : Nat) : CaveClass :=
  if [evTrip, evRampStall, evRetry, evSeatRelease, evXtripOff, evShed, evCpUv, evPreflightRefuse, evLedgerOver, evNtcFault, evSeqAbort,
      evMemberTrack, evBackfeed, evGateLow, evImbalance, evFeedReverse, evFeedVinOv, evHoldInputLow, evHoldCapDrift, evRegOv,
      evCmpDacFail, evMeasRefRefused, evSliceMismatch, evCalBehind, evPlausFail, evSeqSuspended, evVatUe, evVatCrcFail,
      evStreamFault, evDmaFault, evSetupReject, evRingConfigErr, evDbInvalid, evPowerState, evXtripChange, evPtmFail, evTimeStep,
      evTimeUnsync, evBusStuck, evNotifyDropped].contains code then .coalesce
  else if [evLock, evCpFail, evMemberDamage, evUncontrollable, evMemberRetired, evHoldRelease, evHoldReleaseCap, evBankFail,
      evSliceRepaired, evTileRetired, evVatRetireListFull, evRingHalt, evHostLost, evHostBack, evProfileReject, evProfileApplied,
      evProfileSlotFallback, evFwActivated, evFwRolledBack, evPasteFault, evPasteRestart, evRindReset, evSafeHold, evSecurity,
      evPowerUp, evClockFail, evBrownoutWarn, evClear, evLogMemFault, evCaveMode, evStagingOverflow].contains code then .single
  else .none

/-- The events that are never rate-limited (R381). -/
def unlimited (source code : Nat) : Bool :=
  [evTrip, evLock, evShed, evUncontrollable, evMemberDamage, evXtripOff, evBankFail, evHostLost, evHostBack, evRingHalt, evTimeStep,
    evTimeUnsync].contains code || source == 76 || source == 127

/-- Sources that raise events (R373): the reserved ones never do. -/
def sourceReserved (src : Nat) : Bool := src == 78 || (121 ≤ src && src ≤ 126)

/-! ## Unit numbers (R25) -/

/-- Kinds of leaf and hoop, numbered as the configuration block does (R353). -/
inductive Kind where
  | channel | feed | regulator | hold | parallel | group | root
deriving DecidableEq, Repr

/-- The kind of a leaf (R25). -/
def leafKind (u : Nat) : Kind := if u < 64 then .channel else if u < 68 then .feed else if u < 70 then .regulator else .hold

/-- The 71 leaves (R25). -/
def leafNums : List Nat := List.range 71

/-- A leaf's number (R25). -/
abbrev isLeaf (u : Nat) : Prop := u < 71

/-- The drive-stage bank of a channel (R69). -/
def bankOf (ch : Nat) : Nat := ch / 16

/-! ## Nodes (R228) -/

/-- Current node of a leaf (R228). -/
def iNode (u : Nat) : Nat := if u < 64 then u else if u < 68 then 196 + (u - 64) else if u < 70 then 214 + (u - 68) else 217

/-- Output node of a leaf (R228): a feed's VOUT; the store for HOLD. Log entry 20. -/
def vNode (u : Nat) : Nat := if u < 64 then 64 + u else if u < 68 then 204 + (u - 64) else if u < 70 then 212 + (u - 68) else 216

/-- Gate node of a channel (R228). -/
def gNode (ch : Nat) : Nat := 128 + ch

/-- The node a leaf's reference follows: VDn of a channel's bank, FVIN of a feed (R79, R195). Log entry 20. -/
def supplyNode (u : Nat) : Nat := if u < 64 then 192 + u / 16 else if u < 68 then 200 + (u - 64) else 242

/-- Nodes that carry a current (R228). -/
def isCurrentNode (n : Nat) : Bool := n < 64 || (196 ≤ n && n ≤ 199) || n == 214 || n == 215 || n == 217

/-- Full scale of a node in mV (R228, R236). -/
def fullScale (n : Nat) : Rat :=
  if isCurrentNode n then 125
  else if 64 ≤ n ∧ n < 128 then 64000
  else if n = 212 ∨ n = 213 then 8000
  else if n = 216 then 20000
  else if n = 231 then 4000
  else if n = 232 ∨ n = 233 ∨ (234 ≤ n ∧ n ≤ 241) then 2000
  else 80000

/-- The bank that owns a node: false A, true B (R228); taps belong to neither and are put to A. -/
def nodeBank (n : Nat) : Nat :=
  if n < 64 then n / 32
  else if n < 128 then (n - 64) / 32
  else if n < 192 then (n - 128) / 32
  else if n < 196 then (n - 192) / 2
  else if n < 212 then n % 2
  else if n < 216 then n % 2
  else if n < 218 then 0
  else if n < 222 then 0
  else if n < 226 then 1
  else if n < 228 then 0
  else if n < 230 then 1
  else if n = 231 ∨ n = 232 then 1
  else 0

/-- Floor of a rational. -/
def ratFloor (x : Rat) : Int := x.num / (x.den : Int)

/-- A value rounded to a whole number, in the direction the part takes where the manual states none (R145, log entry 7). -/
def roundStep (x : Rat) : Int := if x.den = 1 then x.num else if Config.roundUp x then ratFloor x + 1 else ratFloor x

/-- Rounding to nearest, a tie upward (R145). -/
def ratRound (x : Rat) : Int := ratFloor (x + 1 / 2)

/-- Magnitude of a rational. -/
def ratAbs (x : Rat) : Rat := if x < 0 then -x else x

/-- The larger of two rationals. -/
def ratMax (x y : Rat) : Rat := if x < y then y else x

/-- The smaller of two rationals. -/
def ratMin (x y : Rat) : Rat := if x < y then x else y

/-! ## Opcodes (R343) -/

/-- The opcode numbers of R343. -/
def opTable : List (Nat × Op) :=
  [(0x01, .nop), (0x02, .fence), (0x03, .abort), (0x10, .unitOn), (0x11, .unitOff), (0x12, .unitPwm), (0x13, .unitResetLock),
   (0x14, .unitRetire), (0x15, .unitRestore), (0x18, .unitConfigRead), (0x19, .unitConfigWrite), (0x20, .hoopForm),
   (0x21, .hoopEdit), (0x22, .hoopDissolve), (0x30, .telemSnapshot), (0x31, .streamStart)] ++
  [(0x32, .streamStop), (0x33, .captureArm), (0x34, .captureRead), (0x35, .seqDefine), (0x36, .seqTrigger), (0x40, .logRead),
   (0x41, .logClear), (0x50, .profileLoad), (0x51, .recipeLoad), (0x60, .fwStage), (0x61, .fwActivate), (0x62, .fwRollback),
   (0x70, .powerState), (0x71, .timeSync), (0x78, .calRun), (0x7F, .diagRun)]

/-- The opcode an OPCODE byte names, none when R343 defines none. -/
def opOf (code : Nat) : Option Op := (opTable.find? fun p => p.1 == code).map (·.2)

/-- Opcodes that R343 marks schedulable. -/
def Op.schedulable : Op → Bool
  | .unitOn | .unitOff | .unitPwm | .unitConfigWrite | .telemSnapshot | .captureArm | .seqTrigger => true
  | _ => false

/-- Opcodes that R343 accepts in SAFE_HOLD. -/
def Op.inSafeHold : Op → Bool
  | .nop | .fence | .abort | .unitOff | .unitConfigRead | .telemSnapshot | .streamStop | .captureRead | .logRead | .timeSync => true
  | _ => false

/-- Opcodes that need Rind (R345). -/
def Op.needsRind : Op → Bool
  | .unitOn | .unitPwm | .unitConfigWrite | .unitResetLock | .unitRetire | .unitRestore | .hoopForm | .hoopEdit | .hoopDissolve
  | .logClear | .profileLoad | .recipeLoad | .fwStage | .fwActivate | .fwRollback | .powerState | .timeSync | .calRun | .diagRun => true
  | _ => false

/-- How R343 has an opcode use HANDLE. -/
inductive HandleUse where
  | zero | unit | root | optional
deriving DecidableEq, Repr

/-- The HANDLE column of R343. -/
def Op.handleUse : Op → HandleUse
  | .unitOn | .unitOff | .unitPwm | .unitResetLock | .unitRetire | .unitRestore | .unitConfigRead | .unitConfigWrite | .hoopEdit
  | .hoopDissolve | .telemSnapshot => .unit
  | .hoopForm => .root
  | .captureArm | .calRun => .optional
  | _ => .zero

/-! ## Field IDs (R352) -/

abbrev fRampRate : Nat := 0x0100
abbrev fIlim : Nat := 0x0101
abbrev fPlim : Nat := 0x0102
abbrev fGateSrcMax : Nat := 0x0103
abbrev fVDone : Nat := 0x0104
abbrev fOffMode : Nat := 0x0105
abbrev fSlewI : Nat := 0x0106
abbrev fPwmEdgeI : Nat := 0x0107
abbrev fPwmMinOn : Nat := 0x0108
abbrev fStagger : Nat := 0x0109
abbrev fPwmPhase : Nat := 0x010A
abbrev fScTh : Nat := 0x0200
abbrev fFaultTime : Nat := 0x0201
abbrev fRetryMax : Nat := 0x0202
abbrev fRetryBase : Nat := 0x0203
abbrev fCleanInt : Nat := 0x0204
abbrev fTPg : Nat := 0x0205
abbrev fPgUv : Nat := 0x0206
abbrev fPgOv : Nat := 0x0207
abbrev fPgDrop : Nat := 0x0208
abbrev fVTrack : Nat := 0x0209
abbrev fTTrack : Nat := 0x020A
abbrev fTArm : Nat := 0x020B
abbrev fLeakV : Nat := 0x0300
abbrev fLeakI : Nat := 0x0301
abbrev fTCheck : Nat := 0x0302
abbrev fVgsOk : Nat := 0x0303
abbrev fTGate : Nat := 0x0304
abbrev fImbPct : Nat := 0x0305
abbrev fImbCell : Nat := 0x0306
abbrev fTrackLimit : Nat := 0x0307
abbrev fReportEn : Nat := 0x0308
abbrev fMeasGain : Nat := 0x0400
abbrev fHystOut : Nat := 0x0401
abbrev fBlank : Nat := 0x0402
abbrev fIrev : Nat := 0x0500
abbrev fVOn : Nat := 0x0501
abbrev fVTarget : Nat := 0x0510
abbrev fVHyst : Nat := 0x0511
abbrev fIChg : Nat := 0x0512
abbrev fVRelease : Nat := 0x0513
abbrev fVout : Nat := 0x0520
abbrev fPgLo : Nat := 0x0521
abbrev fPgHi : Nat := 0x0522
abbrev fTCycle : Nat := 0x0523

end Sys2Proof.Machine
end

