-- ==== Sys2Proof/Machine/Ops.lean ====
section
/-!
DEFINITION. Machine/Ops.lean: the named operations over the registers of the block: leaves, hoops, samples, soft values, unit words, events
raised by the Press, tile memory.
-/

namespace Sys2Proof.Machine

/-! ## Time -/

/-- One protection tick in GTC counts: 400 in RUN, 3,200 in DOZE (R382, R383). -/
def tickGtc (s : State) : Nat := if s.power.mode = .doze then 3200 else 400

/-- One protection tick in µs: 1 in RUN, 8 in DOZE (R103). -/
def tickUs (s : State) : Nat := if s.power.mode = .doze then 8 else 1

/-- A time in µs as the next whole number of ticks, in µs (R113, R123, R140). -/
def wholeTicks (s : State) (us : Nat) : Nat := if s.power.mode = .doze then (us + 7) / 8 * 8 else us

/-- GTC counts in a time in µs (R382). -/
def usGtc (us : Nat) : Nat := us * 400

/-- The telemetry window: 100 µs (R257, R258). -/
abbrev windowGtc : Nat := 40000

/-- A figure with its time put before those of the last 100 µs. -/
def windowAdd (gtc : Nat) (x : Rat) (l : List (Nat × Rat)) : List (Nat × Rat) := (gtc, x) :: l.filter fun p => decide (gtc < p.1 + windowGtc)

/-- A fresh free choice (log entry 5). -/
def draw (s : State) : Nat × State := (Config.choice s.draws, { s with draws := s.draws + 1 })

/-! ## Leaves and hoops -/

/-- The leaf as its own registers hold it. -/
def leafOf (s : State) (u : Nat) : Leaf := Tbl.get {} s.press.leaves u

/-- The leaf's registers written. -/
def setLeaf (s : State) (u : Nat) (l : Leaf) : State := s.onPress fun p => { p with leaves := Tbl.put p.leaves u l }

/-- The leaf's registers changed. -/
def onLeaf (s : State) (u : Nat) (f : Leaf → Leaf) : State := setLeaf s u (f (leafOf s u))

/-- The hoop formed at a number, none where none is (R25). -/
def hoopOf (s : State) (h : Nat) : Option Hoop := Tbl.find s.press.hoops h

/-- A hoop's entry written. -/
def setHoop (s : State) (h : Nat) (x : Hoop) : State := s.onPress fun p => { p with hoops := Tbl.put p.hoops h x }

/-- The current generation of a unit number (R30, R32, R33). -/
def genOf (s : State) (u : Nat) : Nat := Tbl.get 1 s.press.gens u

/-- The generation after an advance: 1 to 1,023, then 1 again (R31). -/
def nextGen (g : Nat) : Nat := if g ≥ 1023 then 1 else g + 1

/-- The generation of a unit number advanced by one (R30). -/
def bumpGen (s : State) (u : Nat) : State := s.onPress fun p => { p with gens := Tbl.put p.gens u (nextGen (Tbl.get 1 p.gens u)) }

/-- The current handle of a unit (R27). -/
def handleOf (s : State) (u : Nat) : Word32 := mkHandle s.link.setup.deviceId u (genOf s u)

/-- The parallel hoop a channel is a member of: its number and entry (R45). -/
def parallelOf (s : State) (u : Nat) : Option (Nat × Hoop) := s.press.hoops.find? fun p => p.2.parallel && p.2.members.contains u

/-- The channel whose protection slot serves a leaf (R46): its hoop's slot channel, or the leaf itself. -/
def slotOf (s : State) (u : Nat) : Nat :=
  match parallelOf s u with
  | some (_, h) => h.slot
  | none => u

/-- The leaves that share a leaf's state: the members of its parallel hoop, or itself (R46). -/
def groupOf (s : State) (u : Nat) : List Nat :=
  match parallelOf s u with
  | some (_, h) => h.members
  | none => [u]

/-- The non-retired leaves among those that share a leaf's state. -/
def liveOf (s : State) (u : Nat) : List Nat := (groupOf s u).filter fun m => (leafOf s m).st != .retired

/-- The leaf as protection sees it (R106): the slot's registers, in the state the non-retired members share. -/
def vleaf (s : State) (u : Nat) : Leaf :=
  match parallelOf s u with
  | none => leafOf s u
  | some (_, h) =>
    match (h.members.filter fun m => (leafOf s m).st != .retired).head? with
    | some m => { leafOf s h.slot with st := (leafOf s m).st, sub := (leafOf s m).sub, gate := (leafOf s m).gate }
    | none => { leafOf s h.slot with st := .retired, sub := 0 }

/-- What a member of a parallel hoop takes over from its protection slot (R46, R106, R121). -/
def shareLeaf (v m : Leaf) : Leaf :=
  { m with st := v.st, sub := v.sub, pg := v.pg, retryCancelled := v.retryCancelled, cause := v.cause, mask := v.mask,
           stallAtTrip := v.stallAtTrip, retries := v.retries, gate := v.gate, loop := v.loop, shedHeld := v.shedHeld }

/-- The result of a protection operation on a leaf written back: to itself, or to the slot and every non-retired member (R106). -/
def putv (s : State) (u : Nat) (v : Leaf) : State :=
  match parallelOf s u with
  | none => setLeaf s u v
  | some (_, h) =>
    h.members.foldl (fun s m =>
      let l := leafOf s m
      if m = h.slot then
        (if l.st = .retired then setLeaf s m { v with st := .retired, sub := 0, gate := .holdOff, diag := l.diag }
         else setLeaf s m v)
      else if l.st = .retired then s
      else setLeaf s m (shareLeaf v l)) s

/-- A protection operation on a leaf. -/
def onV (s : State) (u : Nat) (f : Leaf → Leaf) : State := putv s u (f (vleaf s u))

/-- RAMP, ON or LIMIT: the states that can trip (R37). -/
def UState.conducting : UState → Bool
  | .ramp | .on | .limit => true
  | _ => false

/-- ARM, RAMP, ON or LIMIT: the states a turn-off acts on (R37). -/
def UState.active : UState → Bool
  | .arm | .ramp | .on | .limit => true
  | _ => false

/-- State codes (R34). -/
def UState.code : UState → Nat
  | .off => 0 | .arm => 1 | .ramp => 2 | .on => 3 | .limit => 4 | .cool => 5 | .lock => 6 | .retired => 7

/-- Severity of a state in an aggregate (R50). -/
def UState.rank : UState → Nat
  | .off => 0 | .on => 1 | .arm => 2 | .ramp => 3 | .limit => 4 | .cool => 5 | .lock => 6 | .retired => 0

/-- The leaves a unit contains at any depth (R60); `fuel` bounds the depth of the hoop tree. -/
def flatten (s : State) : Nat → Nat → List Nat
  | 0, _ => []
  | fuel + 1, u =>
    if u < 71 then [u]
    else match hoopOf s u with
      | some h => if h.parallel then h.members else h.members.flatMap (flatten s fuel)
      | none => []

/-- The mask of a unit: every leaf it contains; ROOT contains all 71 (R42, R60). -/
def maskOf (s : State) (u : Nat) : List Nat := if u = 255 then leafNums else flatten s 128 u

/-- The ancestors of a unit other than ROOT, nearest first (R43). -/
def ancestors (s : State) : Nat → Nat → List Nat
  | 0, _ => []
  | fuel + 1, u =>
    let p := if u < 71 then (leafOf s u).parent else match hoopOf s u with | some h => h.parent | none => 255
    if p = 255 then [] else p :: ancestors s fuel p

/-- The hoops inside a hoop, at any depth (R62). -/
def hoopsUnder (s : State) (h : Nat) : List Nat := (s.press.hoops.map (·.1)).filter fun k => (ancestors s 128 k).contains h

/-! ## Aggregates (R50 to R53) -/

/-- State and MIXED of a set of member reports (R50, R51). -/
def aggregate (ms : List (UState × Bool)) : UState × Bool :=
  match ms.filter fun m => m.1 != .retired with
  | [] => (.retired, false)
  | m :: rest =>
    (rest.foldl (fun top x => if top.rank < x.1.rank then x.1 else top) m.1,
     m.2 || rest.any fun x => x.1 != m.1 || x.2)

/-- State and MIXED of a unit by number (R50, R51, R53). -/
def aggOf (s : State) : Nat → Nat → UState × Bool
  | 0, _ => (.off, false)
  | fuel + 1, u =>
    if u < 71 then ((leafOf s u).st, false)
    else match hoopOf s u with
      | some h =>
        if h.parallel then ((aggregate (h.members.map fun m => ((leafOf s m).st, false))).1, false)
        else aggregate (h.members.map (aggOf s fuel))
      | none => (.off, false)

/-- The members of ROOT: every unit whose parent is 255 (R43). -/
def topLevel (s : State) : List Nat :=
  (leafNums.filter fun u => (leafOf s u).parent = 255)
    ++ (s.press.hoops.filter fun p => p.2.parent = 255).map (·.1)

/-- State and MIXED of any unit (R50, R51). -/
def unitAgg (s : State) (u : Nat) : UState × Bool := if u = 255 then aggregate ((topLevel s).map (aggOf s 128)) else aggOf s 128 u

/-- PG of any unit (R52). -/
def unitPg (s : State) (u : Nat) : Bool :=
  let live := (maskOf s u).filter fun m => (leafOf s m).st != .retired
  !live.isEmpty && live.all fun m => (leafOf s m).pg

/-- The kind of any unit that is formed. -/
def kindOf (s : State) (u : Nat) : Kind :=
  if u < 71 then leafKind u else if u = 255 then .root
  else match hoopOf s u with | some h => if h.parallel then .parallel else .group | none => .group

/-- A leaf stands for itself; a parallel hoop is served through its slot channel (R46). -/
def evalUnit (s : State) (u : Nat) : Nat := match hoopOf s u with | some h => if u < 71 then u else h.slot | none => u

/-! ## Samples (R107) -/

/-- A node as its bank holds it. -/
def nodeOf (s : State) (n : Nat) : Node := Tbl.get {} s.meas.nodes n

/-- A node's registers changed. -/
def onNode (s : State) (n : Nat) (f : Node → Node) : State :=
  s.onMeas fun m => { m with nodes := Tbl.put m.nodes n (f (Tbl.get {} m.nodes n)) }

/-- A measurement bank. -/
def mbank (s : State) (b : Nat) : Bank := Tbl.get {} s.meas.banks b

/-- A measurement bank's registers changed. -/
def onBank (s : State) (b : Nat) (f : Bank → Bank) : State :=
  s.onMeas fun m => { m with banks := Tbl.put m.banks b (f (Tbl.get {} m.banks b)) }

/-- VALUE as a voltage in mV on the node's full scale (R236). -/
def valueMv (n : Nat) (v : Int) : Rat := (v : Rat) * fullScale n / 32768

/-- VALUE of a current node as mA, through the shunt of its leaf in µΩ (R236); 0 where the leaf has no shunt. -/
def valueMa (shunt : Nat) (v : Int) : Rat := if shunt = 0 then 0 else (v : Rat) * 125000000 / 32768 / (shunt : Rat)

/-- The last usable VALUE of a node: valid, or clipped at its clip value (R107). -/
def heldValue (s : State) (n : Nat) : Option Int := (nodeOf s n).held.map (·.1)

/-- A voltage node as the Press uses it, in mV: its last usable sample, 0 before any (R107, log entry 3). -/
def mv (s : State) (n : Nat) : Rat := match heldValue s n with | some v => valueMv n v | none => 0

/-- The reference buffer of the bank was released in DOZE, so its current nodes are taken as 0 (R107) and no check runs on it (R241). -/
def released (s : State) (n : Nat) : Bool := ((mbank s (nodeBank n)).released || (mbank s (nodeBank n)).rewake) && s.power.mode == .doze

/-- A usable sample of a node for the diagnostic checks, in mV: the latest sample, when it is Valid or Clipped (R169). -/
def usableMv (s : State) (n : Nat) : Option Rat :=
  let d := nodeOf s n
  if released s n then none
  else match d.quality with
    | .valid | .clipped => some (valueMv n d.value)
    | _ => none

/-! ## Soft values (R82, R139, R168, R202, R214, R219, R233, R271, R352) -/

/-- KIND_PARAMS of a feed (R223). -/
def feedParams (s : State) (u : Nat) : FeedParams := match s.fw.profile with | some p => p.feeds.getD (u - 64) {} | none => {}

/-- The strap voltages of R226 in mV, by code; code 7 is an open pin. -/
def strapMv (code : Nat) : Nat := [800, 1000, 1200, 1800, 2500, 3300, 5000].getD code 0

/-- KIND_PARAMS of a regulator (R223), or what its strap selects without a profile (R226). -/
def regParams (s : State) (u : Nat) : RegParams :=
  match s.fw.profile with
  | some p => p.regs.getD (u - 68) {}
  | none =>
    let v := strapMv (if u = 68 then s.fw.strap0 else s.fw.strap1)
    { voutNom := v, voutMin := v, voutMax := v, ovPm := 1150, comp := 3 }

/-- KIND_PARAMS of HOLD (R223). -/
def holdParams (s : State) : HoldParams := match s.fw.profile with | some p => p.hold | none => {}

/-- The kinds that carry a field (R352), with its range as signed numbers. -/
structure FieldSpec where
  id : Nat
  kinds : List Kind
  lo : Int
  hi : Int
  /-- The lowest value above 0, where 0 stands for a default (R139). -/
  gap : Int := 0
deriving DecidableEq, Repr

/-- A value within a field's range. -/
def FieldSpec.admits (f : FieldSpec) (v : Int) : Bool := decide (f.lo ≤ v ∧ v ≤ f.hi ∧ (v = 0 ∨ f.gap ≤ v ∨ f.lo < 0))

/-- Drive fields (R82, R202, R214, R219). -/
def driveFields : List FieldSpec :=
  [{ id := fRampRate, kinds := [.channel, .feed, .regulator], lo := 1, hi := 500 },
   { id := fIlim, kinds := [.channel, .feed, .regulator, .hold], lo := 100, hi := 4294967295 },
   { id := fPlim, kinds := [.channel, .feed], lo := 1000, hi := 1000000 },
   { id := fGateSrcMax, kinds := [.channel], lo := 1, hi := 20000 },
   { id := fVDone, kinds := [.channel, .feed], lo := 100, hi := 2000 },
   { id := fOffMode, kinds := [.channel, .feed], lo := 0, hi := 1 },
   { id := fSlewI, kinds := [.channel, .feed], lo := 500, hi := 20000 },
   { id := fPwmEdgeI, kinds := [.channel], lo := 500, hi := 20000 },
   { id := fPwmMinOn, kinds := [.channel], lo := 2, hi := 500 },
   { id := fStagger, kinds := [.channel], lo := 0, hi := 1 },
   { id := fPwmPhase, kinds := [.channel], lo := 0, hi := 65535 }]

/-- Protection fields (R139). -/
def protFields : List FieldSpec :=
  [{ id := fScTh, kinds := [.channel, .feed], lo := 1000, hi := 4294967295 },
   { id := fFaultTime, kinds := [.channel, .feed, .regulator, .hold], lo := 1, hi := 2000000 },
   { id := fRetryMax, kinds := [.channel, .feed, .regulator, .hold], lo := 0, hi := 15 },
   { id := fRetryBase, kinds := [.channel, .feed, .regulator, .hold], lo := 1, hi := 60000 },
   { id := fCleanInt, kinds := [.channel, .feed, .regulator, .hold], lo := 60, hi := 86400 },
   { id := fTPg, kinds := [.channel, .feed, .regulator, .hold], lo := 1, hi := 1000000 },
   { id := fPgUv, kinds := [.channel], lo := 0, hi := 60000, gap := 1000 },
   { id := fPgOv, kinds := [.channel], lo := 0, hi := 70000, gap := 1000 },
   { id := fPgDrop, kinds := [.channel, .feed, .regulator, .hold], lo := 0, hi := 1 },
   { id := fVTrack, kinds := [.channel, .feed], lo := 500, hi := 10000 },
   { id := fTTrack, kinds := [.channel, .feed], lo := 5, hi := 1000 },
   { id := fTArm, kinds := [.channel, .feed, .regulator, .hold], lo := 1, hi := 10000 }]

/-- Diagnostic fields (R168). -/
def diagFields : List FieldSpec :=
  [{ id := fLeakV, kinds := [.channel], lo := 500, hi := 10000 },
   { id := fLeakI, kinds := [.channel], lo := 10, hi := 5000 },
   { id := fTCheck, kinds := [.channel], lo := 500, hi := 100000 },
   { id := fVgsOk, kinds := [.channel], lo := 4000, hi := 9000 },
   { id := fTGate, kinds := [.channel], lo := 50, hi := 2000 },
   { id := fImbPct, kinds := [.channel], lo := 10, hi := 100 },
   { id := fImbCell, kinds := [.channel], lo := 110, hi := 300 },
   { id := fTrackLimit, kinds := [.channel], lo := 1, hi := 15 },
   { id := fReportEn, kinds := [.channel], lo := 0, hi := 7 }]

/-- Measurement, comparator, feed, HOLD and regulator fields (R201, R213, R218, R233, R271). -/
def kindFields : List FieldSpec :=
  [{ id := fMeasGain, kinds := [.channel, .feed, .hold], lo := 0, hi := 4 },
   { id := fHystOut, kinds := [.channel], lo := 0, hi := 6 },
   { id := fBlank, kinds := [.channel], lo := 0, hi := 255 },
   { id := fIrev, kinds := [.feed], lo := -20000, hi := -100 },
   { id := fVOn, kinds := [.feed], lo := 10, hi := 200 },
   { id := fVTarget, kinds := [.hold], lo := 1000, hi := 4294967295 },
   { id := fVHyst, kinds := [.hold], lo := 50, hi := 1000 },
   { id := fIChg, kinds := [.hold], lo := 100, hi := 4294967295 },
   { id := fVRelease, kinds := [.hold], lo := 6000, hi := 12000 },
   { id := fVout, kinds := [.regulator], lo := 800, hi := 5500 },
   { id := fPgLo, kinds := [.regulator], lo := 800, hi := 990 },
   { id := fPgHi, kinds := [.regulator], lo := 1010, hi := 1200 },
   { id := fTCycle, kinds := [.regulator], lo := 10, hi := 10000 }]

/-- Every writable field of a leaf or parallel hoop, in ascending ID (R352). -/
def fieldTable : List FieldSpec := driveFields ++ protFields ++ diagFields ++ kindFields

/-- The spec of a field ID, none where the ID is no writable field of a leaf. -/
def fieldSpec (id : Nat) : Option FieldSpec := fieldTable.find? fun f => f.id == id

/-- A parallel hoop carries the fields of a channel (R352). -/
def carries (k : Kind) (f : FieldSpec) : Bool := f.kinds.contains (if k = .parallel then .channel else k)

/-- A field's default (R82, R139, R168, R201, R213, R218, R233, R271); `u` is the leaf or slot channel. One that is a bound of the envelope follows it for as long as
nothing has written the field (DESIGN CHOICE, log entry 121). -/
def fieldDefault (s : State) (u id : Nat) : Int :=
  let e := (leafOf s u).env
  if id = fRampRate then 50
  else if id = fIlim then e.ilimMax
  else if id = fPlim then e.pRamp
  else if id = fGateSrcMax then 10000
  else if id = fVDone then 500
  else if id = fOffMode then 1
  else if id = fSlewI then 2000
  else if id = fPwmEdgeI then 5000
  else if id = fPwmMinOn then 10
  else if id = fScTh then e.scTh
  else if id = fFaultTime then e.faultTimeMax
  else if id = fRetryMax then e.retryMax
  else if id = fRetryBase then 100
  else if id = fCleanInt then 3600
  else if id = fTPg then 100
  else if id = fVTrack then 2000
  else if id = fTTrack then 20
  else if id = fTArm then 100
  else if id = fLeakV then 1500
  else if id = fLeakI then 100
  else if id = fTCheck then 2000
  else if id = fVgsOk then 7000
  else if id = fTGate then 200
  else if id = fImbPct then 40
  else if id = fImbCell then 150
  else if id = fTrackLimit then 3
  else if id = fReportEn then 7
  else if id = fMeasGain then 4
  else if id = fHystOut then 4
  else if id = fIrev then (if (feedParams s u).irevMax < 2000 then -((feedParams s u).irevMax : Int) else -2000)
  else if id = fVOn then 50
  else if id = fVTarget then (holdParams s).vStoreMax
  else if id = fVHyst then 200
  else if id = fIChg then (if (holdParams s).iChgMax < 1000 then (holdParams s).iChgMax else 1000)
  else if id = fVRelease then 10500
  else if id = fVout then (regParams s u).voutNom
  else if id = fPgLo then 925
  else if id = fPgHi then 1075
  else if id = fTCycle then 500
  else 0

/-- The soft values of a leaf: its parallel hoop's while it is a member (R82), with the slot channel's envelope. -/
def softTable (s : State) (u : Nat) : Tbl Word32 :=
  match parallelOf s u with
  | some (_, h) => h.soft
  | none => (leafOf s u).soft

/-- A soft value in force, as a signed number. -/
def softI (s : State) (u id : Nat) : Int :=
  match Tbl.find (softTable s u) id with
  | some w => if id = fIrev then w.toInt else w.toNat
  | none => fieldDefault s (slotOf s u) id

/-- A soft value in force, as an unsigned number. -/
def soft (s : State) (u id : Nat) : Nat := (softI s u id).toNat

/-- The bounds on a field (R82, R139, R201, R213, R219): lowest and highest value the envelope permits. -/
def fieldBound (s : State) (u id : Nat) : Option (Int × Int) :=
  let e := (leafOf s (slotOf s u)).env
  if id = fIlim then some (0, e.ilimMax)
  else if id = fPlim then some (0, e.pRamp)
  else if id = fScTh then some (0, e.scTh)
  else if id = fFaultTime then some (0, e.faultTimeMax)
  else if id = fRetryMax then some (0, e.retryMax)
  else if id = fIrev then some (-((feedParams s u).irevMax : Int), 0)
  else if id = fVTarget then some (0, (holdParams s).vStoreMax)
  else if id = fIChg then some (0, (holdParams s).iChgMax)
  else if id = fVout then some ((regParams s u).voutMin, (regParams s u).voutMax)
  else none

/-- A soft value stored for a leaf, or for its parallel hoop (R82). -/
def setSoft (s : State) (u id : Nat) (v : Word32) : State :=
  match parallelOf s u with
  | some (n, h) => setHoop s n { h with soft := Tbl.put h.soft id v }
  | none => onLeaf s u fun l => { l with soft := Tbl.put l.soft id v }

/-- A change of envelope lowers each soft value written that stands above its new bound (R139, R189; log entry 121 says what of one never written); the regulator's
voltage is also raised to its lower bound. -/
def lowerSoft (s : State) (u : Nat) : State :=
  fieldTable.foldl (fun s f =>
    match Tbl.find (softTable s u) f.id, fieldBound s u f.id with
    | some _, some (lo, hi) =>
      let v := softI s u f.id
      if hi < v then setSoft s u f.id (w32i hi) else if v < lo then setSoft s u f.id (w32i lo) else s
    | _, _ => s) s

/-! ## Currents (R107, R46) -/

/-- A sample is at most 16 µs old (R107). -/
def recent (s : State) (t : Nat) : Bool := decide (s.time.gtc ≤ t + 6400)

/-- The current of a node without a usable sample: the last one for 16 µs, then PROT_SC_TH (R107). A regulator and HOLD have no PROT_SC_TH: the last one
stands (DESIGN CHOICE, log entry 81). -/
def heldMa (s : State) (u : Nat) (held : Option (Int × Nat)) : Rat :=
  let sh := (leafOf s u).env.shunt
  let th : Rat := (soft s u fScTh : Rat)
  match held with
  | some (v, t) => if recent s t || leafKind u == .regulator || leafKind u == .hold then valueMa sh v else th
  | none => th

/-- The current of one leaf as protection uses it, in mA (R107). -/
def leafMa (s : State) (u : Nat) : Rat :=
  let n := iNode u
  let d := nodeOf s n
  if released s n then 0
  else match d.quality with
    | .valid | .clipped => heldMa s u (some (d.value, d.at_))
    | .suspect =>
      if d.plausFail then
        (match d.dual with
         | some v => heldMa s u (some (if v.natAbs < d.value.natAbs then d.value else v, d.at_))
         | none => heldMa s u (some (d.value, d.at_)))
      else heldMa s u d.held
    | .settling => heldMa s u d.held

/-- The current protection acts on: the sum over a parallel hoop's members (R46); its magnitude for HOLD (R208). -/
def unitMa (s : State) (u : Nat) : Rat :=
  let i := ((groupOf s u).map (leafMa s)).foldl (· + ·) 0
  if leafKind u = .hold then ratAbs i else i

/-- A usable current sample for the diagnostic checks, in mA (R169). -/
def usableMa (s : State) (u : Nat) : Option Rat :=
  let d := nodeOf s (iNode u)
  if released s (iNode u) then none
  else match d.quality with
    | .valid | .clipped => some (valueMa (leafOf s u).env.shunt d.value)
    | _ => none

/-- The output voltage of a unit, mV: that of its slot channel (R78). -/
def outMv (s : State) (u : Nat) : Rat := mv s (vNode u)

/-- REG_VOUT rounded to the nearest step of the reference, 1.5625 mV; a tie upward (R217; the tie is log entry 7). -/
def regTarget (s : State) (u : Nat) : Rat := (ratRound ((soft s u fVout : Rat) * 16 / 25) : Rat) * 25 / 16

/-- The supply a unit's reference follows, mV: VDn, FVIN, REG_VOUT (R79, R195, R217). -/
def supplyMv (s : State) (u : Nat) : Rat :=
  match leafKind u with
  | .regulator => regTarget s u
  | .hold => mv s (192 + (holdParams s).bank)
  | _ => mv s (supplyNode u)

/-- V_DS of a unit's MOSFET, mV (R148, R193, R207). -/
def vdsMv (s : State) (u : Nat) (i : Rat) : Rat :=
  let drop := i * ((leafOf s u).env.shunt : Rat) / 1000000
  match leafKind u with
  | .hold => mv s 216 - mv s (192 + (holdParams s).senseBank)
  | _ => mv s (supplyNode u) - outMv s u - drop

/-! ## Events of the Press -/

/-- An event raised by the Press in the present tick, handed over at its end (R375). -/
def raiseP (s : State) (source code : Nat) (p0 p1 p2 : Word32) : State :=
  s.onPress fun p => { p with evq := p.evq ++ [{ source := source, code := code, p0 := p0, p1 := p1, p2 := p2, byRule := p.byRule }] }

/-- An event of a comparator cell that latches between two ticks: the Press reads the latch at the next boundary (R23). -/
def raiseCell (s : State) (source code : Nat) (p0 p1 p2 : Word32) : State :=
  s.onPress fun p => { p with cellq := p.cellq ++ [{ source := source, code := code, p0 := p0, p1 := p1, p2 := p2, byRule := p.byRule }] }

/-- The latches of the cells read at a boundary: their events are events of this tick (R23). -/
def takeCells (s : State) : State := s.onPress fun p => { p with evq := p.evq ++ p.cellq, cellq := [] }

/-- The unit an event about a leaf names: its parallel hoop, or itself (R46). -/
def eventUnit (s : State) (u : Nat) : Nat := match parallelOf s u with | some (n, _) => n | none => u

/-! ## Unit words (R36, R121, R151, R187) -/

/-- A sequence of the hoop itself runs (R36). -/
def seqActive (s : State) (u : Nat) : Bool := match hoopOf s u with | some h => decide (h.seq ≠ .idle) | none => false

/-- The unit state word (R36). -/
def stateWord (s : State) (u : Nat) : Word32 :=
  let g := genOf s u
  if u < 71 then
    let l := leafOf s u
    w32 (g * 4194304 + ofB l.retryCancelled * 2097152 + ofB l.env.parkKeep * 524288 + l.env.shedClass % 8 * 65536
      + l.parent % 256 * 256 + ofB l.pg * 128 + l.sub % 4 * 16 + l.st.code)
  else if u = 255 then
    let a := unitAgg s 255
    w32 (g * 4194304 + 255 * 256 + ofB (unitPg s 255) * 128 + ofB a.2 * 64 + a.1.code)
  else match hoopOf s u with
    | some h =>
      let a := unitAgg s u
      let l := vleaf s h.slot
      w32 (g * 4194304 + ofB (h.parallel && l.retryCancelled) * 2097152 + ofB (seqActive s u) * 1048576
        + ofB (h.parallel && l.env.parkKeep) * 524288 + h.parent % 256 * 256 + ofB (unitPg s u) * 128 + ofB (!h.parallel && a.2) * 64
        + (if h.parallel then l.sub % 4 else 0) * 16 + a.1.code)
    | none => w32 (g * 4194304 + 255 * 256)

/-- FT_LEVEL (R121). -/
def ftLevel (s : State) (u : Nat) : Nat :=
  let l := vleaf s u
  let t := wholeTicks s (soft s u fFaultTime) * 8
  if l.ftTrip then 4095 else if t = 0 then 0 else satN 4095 (4096 * l.faultT / t)

/-- Seat and mate inputs mapped to a leaf: 0 to 7 SEAT, 8 + 2n and 9 + 2n MATEnA and MATEnB (R133). -/
def seatsOf (s : State) (u : Nat) : List Nat :=
  if leafKind u = .feed then [8 + 2 * (u - 64), 9 + 2 * (u - 64)]
  else if (leafOf s u).env.seatMap < 8 then [(leafOf s u).env.seatMap] else []

/-- Seating of a leaf is confirmed (R133). -/
def seated (s : State) (u : Nat) : Bool := (seatsOf s u).isEmpty || s.press.confirmed.contains u

/-- The protection word (R121). -/
def protWord (s : State) (u : Nat) : Word32 :=
  let go (u : Nat) : Word32 :=
    let l := vleaf s u
    w32 (l.cause % 16 * 268435456 + l.mask % 256 * 1048576 + ofB l.ramp.stall * 524288 + ofB l.stallAtTrip * 262144
      + ofB (seated s u) * 131072 + ofB l.shedHeld * 65536 + l.retries % 16 * 4096 + ftLevel s u)
  if u < 71 then go (slotOf s u)
  else match hoopOf s u with
    | some h => if h.parallel then go h.slot else 0
    | none => 0

/-- A held temperature in 2⁻³² K steps, with 0 at 0 °C, as a number of steps of 1/n °C, a tie upward (R145). -/
def tempSteps (t : Int) (n : Nat) : Int := ratRound ((t : Rat) * (n : Rat) / 4294967296)

/-- The thermal word of one leaf (R151): highest junction, conductor of the hoop's wire model. A temperature outside its field's format wraps: the manual states
none (DESIGN CHOICE, log entry 113). -/
def thermalPack (tj : Int) (amb : Bool) (tc : Int) : Word32 :=
  w32 (((tempSteps tj 8) % 32768).toNat * 131072 + ofB amb * 65536 + ((tempSteps tc 16) % 65536).toNat)

/-- The thermal word (R151): of a leaf its own, of a parallel hoop over all its members, of a group hoop and ROOT over the non-retired leaves. -/
def thermalWord (s : State) (u : Nat) : Word32 :=
  let par := (kindOf s u = .parallel)
  let ms := (maskOf s u).filter fun m => (leafOf s m).st != .retired || u < 71 || par
  match ms with
  | [] => 0
  | m :: rest =>
    let wire (m : Nat) : Ledger := if par || (leafOf s m).st != .retired then (leafOf s (slotOf s m)).led else (leafOf s m).led
    let tcOf (m : Nat) : Int := (wire m).tc
    thermalPack (rest.foldl (fun t x => if t < (leafOf s x).led.tj then (leafOf s x).led.tj else t) (leafOf s m).led.tj)
      ((m :: rest).any fun x => (wire x).ambFailed || (leafOf s x).led.caseFailed)
      (rest.foldl (fun t x => if t < tcOf x then tcOf x else t) (tcOf m))

/-- The diagnostic word of one leaf (R187). -/
def diagPack (d : Diag) : Word32 :=
  w32 (d.verdict % 16 * 268435456 + ofB d.uncontrollable * 134217728 + ofB d.damaged * 67108864 + ofB d.backfeed * 33554432
    + ofB d.gateLow * 16777216 + ofB d.recorded * 8388608 + d.other % 8 * 1048576 + d.trackCount % 16 * 65536
    + satN 255 d.imbPct * 256 + d.esc % 4 * 64)

/-- The diagnostic word (R187). A parallel hoop returns the lowest verdict and the OR of the flags; its TRACK_COUNT, IMB_PCT and ESC, which are no flags,
read 0 (DESIGN CHOICE, log entry 82). -/
def diagWord (s : State) (u : Nat) : Word32 :=
  if u < 71 then diagPack (leafOf s u).diag
  else match hoopOf s u with
    | some h =>
      if h.parallel then
        let ds := h.members.map fun m => (leafOf s m).diag
        let v := ds.foldl (fun v d => if d.verdict ≠ 0 ∧ (v = 0 ∨ d.verdict < v) then d.verdict else v) 0
        diagPack { verdict := v, uncontrollable := ds.any (·.uncontrollable), damaged := ds.any (·.damaged),
                   backfeed := ds.any (·.backfeed), gateLow := ds.any (·.gateLow), recorded := ds.any (·.recorded),
                   other := ds.foldl (fun o d => o ||| d.other) 0 }
      else 0
    | none => 0

/-! ## The Vat's memory (R284) -/

/-- A byte stored; storing what an unlisted byte reads as, 0, removes the entry (log entry 6). -/
def storeByte (m : Mem) (a : Nat) (b : Byte) : Mem := Tbl.set 0 m a b

/-- Bytes stored at consecutive addresses. -/
def storeBytes (m : Mem) (a : Nat) (bs : List Byte) : Mem := Mem.store 0 m a bs

/-- A byte read; an unlisted byte reads 0 (log entry 6). -/
def loadByte (m : Mem) (a : Nat) : Byte := Tbl.get 0 m a

/-- Bytes read from consecutive addresses. -/
def loadBytes (m : Mem) (a : Nat) : Nat → List Byte
  | 0 => []
  | n + 1 => loadByte m a :: loadBytes m (a + 1) n

end Sys2Proof.Machine
end

