-- ==== Sys2Proof/Machine/Tiles.lean ====
section
/-!
DEFINITION. Machine/Tiles.lean: the Vat's tiles: tags and their life, CRC-32C, regions, holders, reserves and quotas (R284 to R295).
-/

namespace Sys2Proof.Machine

/-! ## CRC-32C (R285); the polynomial is that of the name, log entry 13 -/

/-- One bit of the checksum, least significant bit first. -/
def crcBit (c : BitVec 32) : BitVec 32 := if c.getLsbD 0 then (c >>> 1) ^^^ 0x82F63B78#32 else c >>> 1

/-- One byte of the checksum. -/
def crcByte (c : BitVec 32) (b : Byte) : BitVec 32 :=
  crcBit (crcBit (crcBit (crcBit (crcBit (crcBit (crcBit (crcBit (c ^^^ b.setWidth 32))))))))

/-- CRC-32C of a byte string. -/
def crc32c (bs : List Byte) : Word32 := ~~~ (bs.foldl crcByte 0xFFFFFFFF#32)

/-! ## Tags (R284, R285) -/

/-- The tag of a tile. -/
def tagOf (s : State) (t : Nat) : Tag := Tbl.get {} s.vat.tags t

/-- A tag written. -/
def setTag (s : State) (t : Nat) (g : Tag) : State := s.onVat fun v => { v with tags := Tbl.put v.tags t g }

/-- A tile generation after an advance: 1 to 65,535, then 1 again (R285). -/
def nextTileGen (g : Nat) : Nat := if 65535 ≤ g then 1 else g + 1

/-- A tile enters FILLING for a holder: from FREE by allocation, or rewritten from CLOSED (R285). -/
def tileFilling (g : Tag) (holder : Nat) : Tag := { g with gen := nextTileGen g.gen, state := .filling, holder := holder, poison := false, crc := 0 }

/-- A tile closed with the checksum of its content, inverted when the tile is poisoned (R285, R288). -/
def tileClosed (g : Tag) (crc : Word32) : Tag := { g with state := .closed, crc := if g.poison then ~~~ crc else crc }

/-- A tile released to FREE (R285). -/
def tileFree (g : Tag) : Tag := { g with state := .free, holder := 0, poison := false }

/-- The code of a tile state (R284). -/
def TileState.code : TileState → Nat
  | .free => 0 | .filling => 1 | .closed => 2 | .reading => 3 | .retired => 4

/-- The 8 bytes of a tag, least significant first (R5, R284). -/
def tagBytes (g : Tag) : List Byte :=
  toLe (g.holder % 128 + g.state.code * 256 + ofB g.poison * 2048 + g.gen % 65536 * 65536) 4 ++ toLe g.crc.toNat 4

/-! ## Regions (R292) -/

/-- First tile and size of the capture region. -/
def capsFrom (v : Vat) : Nat := 512 + v.pasteTiles + v.histTiles

/-- First tile of the pool. -/
def poolFrom (v : Vat) : Nat := capsFrom v + 4 * v.capTiles

/-- The tiles in which a holder's may lie: first tile and number (R291, R292). The two halves of the retention record lie in tiles 0 to 63, the Cave's
staging in the next 256 and Rind's working data in the rest of their region (log entry 93). -/
def regionOf (v : Vat) (holder : Nat) : Nat × Nat :=
  if holder = 1 then (320, 192)
  else if holder = 2 then (64, 256)
  else if holder = 3 ∨ holder = 4 ∨ holder = 6 then (512, v.pasteTiles)
  else if holder = 68 then (512 + v.pasteTiles, v.histTiles)
  else if 64 ≤ holder ∧ holder < 68 then (capsFrom v + (holder - 64) * v.capTiles, v.capTiles)
  else (poolFrom v, 8192 - poolFrom v)

/-! ## Pool holders (R293, R294) -/

/-- The holder of a ring, by ring set index (R291, R313): SQ0 to SQ15, CQ0 to CQ15, ST0 to ST7, EV0 to EV3. -/
def ringHolder (idx : Nat) : Nat := 16 + idx

/-- The pool holders: the rings, the handover and bulk. -/
def poolHolders : List Nat := (List.range 44).map ringHolder ++ [5, 69]

/-- Reserve and quota of a holder: what the recipe in force set, or the default (R293). -/
def poolLimits (s : State) (holder : Nat) : Nat × Nat :=
  match Tbl.find s.vat.quotas holder with
  | some x => x
  | none =>
    if holder = 5 then (64, 512) else if holder = 69 then (64, 1024)
    else if holder < 32 then (4, 16) else if holder < 48 then (2, 8) else if holder < 56 then (16, 256) else (8, 32)

/-- The references of a holder, oldest first: tile and GEN (R286). -/
def refsOf (s : State) (holder : Nat) : List (Nat × Nat) := Tbl.get [] s.vat.held holder

/-- The tiles a holder has, oldest first. -/
def tilesOf (s : State) (holder : Nat) : List Nat := (refsOf s holder).map (·.1)

/-- A holder's references written. -/
def setRefs (s : State) (holder : Nat) (rs : List (Nat × Nat)) : State := s.onVat fun v => { v with held := Tbl.put v.held holder rs }

/-- A reference is honoured: its GEN matches, and the tile is CLOSED or READING, or FILLING, which the model lets none but its producer read (R286). -/
def honoured (s : State) (r : Nat × Nat) : Bool :=
  (tagOf s r.1).gen == r.2 && match (tagOf s r.1).state with | .filling | .closed | .reading => true | _ => false

/-- Pool tiles that are neither held nor retired, and that wait for no test. -/
def poolFreeCount (s : State) : Nat :=
  8192 - poolFrom s.vat - ((s.vat.held.filter fun p => poolHolders.contains p.1).map (·.2.length)).sum
    - (s.vat.tags.filter fun p => decide (poolFrom s.vat ≤ p.1) && p.2.state == .retired).length
    - (s.vat.toTest.filter fun t => decide (poolFrom s.vat ≤ t) && (tagOf s t).state == .free).length

/-- What the other holders' reserves still keep back. -/
def reservedForOthers (s : State) (holder : Nat) : Nat :=
  ((poolHolders.filter (· != holder)).map fun h => (poolLimits s h).1 - (refsOf s h).length).sum

/-- A pool holder can allocate `n` tiles: within its quota, and inside its reserve or beyond what is kept for the others (R293, R294). -/
def tilesAvailable (s : State) (holder n : Nat) : Bool :=
  let have_ := (refsOf s holder).length
  decide (have_ + n ≤ (poolLimits s holder).2)
    && decide (n ≤ poolFreeCount s)
    && (decide (have_ + n ≤ (poolLimits s holder).1) || decide (reservedForOthers s holder + n ≤ poolFreeCount s))

/-- A pool holder can allocate a tile. -/
abbrev tileAvailable (s : State) (holder : Nat) : Bool := tilesAvailable s holder 1

/-- The free tiles of a region; those that wait for Rind's test are none (R289). -/
def freeIn (s : State) (r : Nat × Nat) : List Nat :=
  ((List.range r.2).map (· + r.1)).filter fun t => (tagOf s t).state == .free && !s.vat.toTest.contains t

/-! ## Allocation, closing, release (R285) -/

/-- A tile enters FILLING for a holder, by allocation or by rewriting its own; what was damaged in it is overwritten. -/
def fillTile (s : State) (holder t : Nat) : State :=
  let s := setTag (s.onVat fun v => { v with bad := v.bad.filter (· != t) }) t (tileFilling (tagOf s t) holder)
  setRefs s holder (((refsOf s holder).filter fun r => r.1 != t) ++ [(t, (tagOf s t).gen)])

/-- A free tile of its region allocated to a holder; which one is a free choice (R285, log entry 5). -/
def allocTile (s : State) (holder : Nat) : State :=
  let d := draw s
  let f := freeIn s (regionOf s.vat holder)
  match f with
  | [] => s
  | t :: rest => fillTile d.2 holder ((t :: rest).getD (d.1 % f.length) t)

/-- A tile closed: with the 512 bytes given, or with content the manual does not lay out, whose checksum is then a free value. -/
def closeRef (s : State) (r : Nat × Nat) (content : Option (List Byte)) : State :=
  match content with
  | some bs => setTag (s.onVat fun v => { v with mem := storeBytes v.mem (512 * r.1) bs }) r.1 (tileClosed (tagOf s r.1) (crc32c (slice bs 0 512)))
  | none => let d := draw s; setTag d.2 r.1 (tileClosed (tagOf s r.1) (w32 d.1))

/-- The tile a holder fills closed. -/
def closeTile (s : State) (holder : Nat) (content : Option (List Byte)) : State :=
  match (refsOf s holder).getLast? with
  | none => s
  | some r => closeRef s r content

/-- A holder lets a tile go: read and released, released unread, or abandoned while FILLING (R285); a stale reference frees nothing. -/
def freeRef (s : State) (holder : Nat) (r : Nat × Nat) : State :=
  let s := if honoured s r then setTag s r.1 (tileFree (tagOf s r.1)) else s
  setRefs s holder ((refsOf s holder).filter (· != r))

/-- A holder's oldest tile read and released, or released unread (R285). -/
def releaseTile (s : State) (holder : Nat) : State :=
  match refsOf s holder with
  | [] => s
  | r :: _ => freeRef s holder r

/-- Every tile of a holder released (R285, R295). -/
def releaseAll (s : State) (holder : Nat) : State := (refsOf s holder).foldl (fun s r => freeRef s holder r) s

/-- Some tiles of a holder released. -/
def freeRefs (s : State) (holder : Nat) (rs : List (Nat × Nat)) : State := rs.foldl (fun s r => freeRef s holder r) s

/-- `n` tiles allocated to a holder and left FILLING, with their references. -/
def takeTiles (holder n : Nat) (s : State) : State × List (Nat × Nat) :=
  let t := (List.range n).foldl (fun s _ => allocTile s holder) s
  (t, (refsOf t holder).drop (refsOf s holder).length)

/-- Tiles filled with the bytes of a string, 512 to each, and closed. -/
def closeRefs (rs : List (Nat × Nat)) (bs : List Byte) (s : State) : State :=
  (List.range rs.length).foldl (fun s i => closeRef s (rs.getD i (8192, 0)) (some (slice bs (512 * i) 512))) s

/-- The tiles that a string of bytes takes. -/
def tilesFor (n : Nat) : Nat := (n + 511) / 512

/-- A string of bytes put in tiles of a holder, which are closed (R19, R20). -/
def stageBytes (holder : Nat) (bs : List Byte) (s : State) : State × List (Nat × Nat) :=
  let t := takeTiles holder (tilesFor bs.length) s
  (closeRefs t.2 bs t.1, t.2)

/-- Bytes that pass through tiles of a holder within one row: filled, closed, read through the checker and released (R19, R20). -/
def passBytes (holder : Nat) (bs : List Byte) (s : State) : State :=
  (List.range (tilesFor bs.length)).foldl (fun s i =>
    let t := stageBytes holder (slice bs (512 * i) (Nat.min 512 (bs.length - 512 * i))) s
    freeRefs t.1 holder t.2) s

/-- A ring holder's tiles brought to `closed` closed ones and, with `open_`, one being filled: what its queued entries take (R285). -/
def syncTiles (s : State) (holder closed : Nat) (open_ : Bool) : State :=
  let have_ := (refsOf s holder).length
  let want := closed + ofB open_
  let isOpen (s : State) : Bool := match (refsOf s holder).getLast? with | some r => (tagOf s r.1).state == .filling | none => false
  let s := (List.range (have_ - want)).foldl (fun s _ => releaseTile s holder) s
  let s := if isOpen s ∧ (have_ < want ∨ ¬ open_) then closeTile s holder none else s
  (List.range (want - have_)).foldl (fun s i =>
    let s := allocTile s holder
    if i + 1 = want - have_ ∧ open_ then s else closeTile s holder none) s

/-! ## Checked reads (R286, R288, R289) -/

/-- A read through a reference fails: its tile is damaged or was poisoned as it filled, or the reference is stale. -/
def unreadable (s : State) (r : Nat × Nat) : Bool :=
  s.vat.bad.contains r.1 || !honoured s r || ((tagOf s r.1).poison && (tagOf s r.1).state != .filling)

/-- A failure of a tile counted (R289). -/
def countFail (s : State) (t : Nat) : State := s.onVat fun v => { v with fails := Tbl.put v.fails t (Tbl.get 0 v.fails t + 1) }

/-- The tile of a failed checked read counted, for Rind to claim (R289). -/
def noteFail (s : State) (t : Nat) : State :=
  (countFail s t).onVat fun v => { v with toTest := if v.toTest.contains t then v.toTest else v.toTest ++ [t] }

/-- A stale reference met, which moves no data and is counted in VAT_STALE (R286). -/
def countStale (s : State) : State := s.onVat fun v => { v with stale := satN 4294967295 (v.stale + 1) }

end Sys2Proof.Machine
end

