-- ==== Sys2Proof/Machine/Events.lean ====
section
/-!
DEFINITION. Machine/Events.lean: the Cave's recording, the event router's ingress, routing and rate limits, and what an event triggers: captures,
sequences, recipe rules, the two-wire status word.
-/

namespace Sys2Proof.Machine

/-! ## The Cave (R395 to R409) -/

/-- SUBSEC: 1/256 s within the current second (R398). -/
def subsec (s : State) : Nat := s.time.subsec * 256 / 400000000 % 256

/-- The page after `p` that is not in the bad-page map (R397, R407). -/
def nextPage (bad : List Nat) : Nat → Nat → Nat
  | 0, p => p
  | fuel + 1, p => if bad.contains ((p + 1) % 64) then nextPage bad fuel ((p + 1) % 64) else (p + 1) % 64

/-- Good pages: G of R397. -/
def goodPages (c : Cave) : Nat := 64 - c.badPages.length

/-- A list's last `n` elements. -/
def lastN {α : Type} (n : Nat) (l : List α) : List α := l.drop (l.length - n)

/-- A page whose erase count has reached its limit: it is not erased again (R515). -/
def worn (c : Cave) (p : Nat) : Bool := decide (100000 ≤ Tbl.get 0 c.erases p)

/-- A page of the ring that fails is mapped out; three failures with no record programmed between, or a full map, make the Cave DEGRADED (R408). What Rind writes
and raises about it falls due. -/
def mapOut (p seq : Nat) (c : Cave) : Cave :=
  let run := c.failRun + 1
  let full := decide (64 ≤ c.badPages.length)
  let bad := if full then c.badPages else c.badPages ++ [p]
  let lost := full || decide (3 ≤ run) || decide (64 ≤ bad.length)
  { c with badPages := bad, failRun := run, mode := if lost then .degraded else c.mode,
           page := if c.page = p then nextPage bad 64 p else c.page, inPage := if c.page = p then 0 else c.inPage,
           faultsDue := c.faultsDue ++ [{ page := p, seq := seq, bad := bad.length, run := run, lost := lost }] }

/-- Worn pages whose turn to be erased comes are handled as pages whose erase failed (R408, R515). -/
def mapWorn : Nat → Cave → Cave
  | 0, c => c
  | n + 1, c => if c.mode = .normal ∧ c.inPage = 0 ∧ worn c c.page then mapWorn n (mapOut c.page c.nextSeq c) else c

/-- A record programmed in the store of the mode, with the next SEQ (R397, R408); the page is erased before its first record, and with its records go
those of mapped-out pages that are older still. -/
def programRec (c : Cave) (r : CaveRec) : Cave :=
  let c := mapWorn 64 c
  let r := { r with seq := c.nextSeq }
  let c := { c with nextSeq := c.nextSeq + 1, failRun := 0 }
  match c.mode with
  | .normal =>
    let c := if c.inPage = 0 then
        { c with ring := (c.ring.dropWhile fun p => p.1 == c.page || c.badPages.contains p.1).filter fun p => p.1 != c.page,
                 erases := Tbl.put c.erases c.page (Tbl.get 0 c.erases c.page + 1) }
      else c
    let c := { c with ring := c.ring ++ [(c.page, r)], inPage := c.inPage + 1 }
    if c.inPage ≥ 128 then { c with page := nextPage c.badPages 64 c.page, inPage := 0 } else c
  | .degraded => { c with failsafe := lastN 63 (c.failsafe ++ [r]) }
  | .volatile => { c with volatileRing := lastN 4096 (c.volatileRing ++ [r]) }

/-- Rind can program records: it runs, and no brownout warning stands but for the commit at its start (R401, R431, R451). -/
def rindCommits (s : State) : Bool := s.fw.rind == .running && !s.power.brownout

/-- A class S record committed latches CAVE_S of the status word (R476). -/
def latchBus (s : State) (b : Nat) : State := s.onBus fun x => { x with latched := x.latched ||| BitVec.ofNat 16 (2 ^ b) }

/-! ### Record bytes (R395, R396) -/

/-- One bit of CRC-16, most significant bit first. -/
def crc16Bit (c : BitVec 16) : BitVec 16 := if c.getLsbD 15 then (c <<< 1) ^^^ 0x1021#16 else c <<< 1

/-- One byte of CRC-16. -/
def crc16Byte (c : BitVec 16) (b : Byte) : BitVec 16 :=
  crc16Bit (crc16Bit (crc16Bit (crc16Bit (crc16Bit (crc16Bit (crc16Bit (crc16Bit (c ^^^ (b.setWidth 16 <<< 8)))))))))

/-- CRC-16 of Cave and lock records (R396). -/
def crc16 (bs : List Byte) : BitVec 16 := bs.foldl crc16Byte 0xFFFF#16

/-- The 30 bytes of a record before its CRC (R395). -/
def recBody (r : CaveRec) : List Byte :=
  toLe r.seq 4 ++ toLe (r.source % 256 * 65536 + r.code % 65536) 4 ++ toLe r.opsec 4 ++ toLe (r.subsec % 256 * 16777216 + r.cycle % 16777216) 4
    ++ toLe r.p0.toNat 4 ++ toLe r.p1.toNat 4 ++ toLe r.p2.toNat 4 ++ toLe r.rept 2

/-- The 32 bytes of a Cave record (R395). -/
def recBytes (r : CaveRec) : List Byte := recBody r ++ toLe (crc16 (recBody r)).toNat 2

/-! ### Staging and programming (R19, R292, R401, R403, R408) -/

/-- The records that stand in staging: those that wait for Rind, the open one, and those of the VOLATILE ring (R401, R403, R408). -/
def stagedCount (c : Cave) : Nat := c.staged.length + ofB c.open_.isSome + c.volatileRing.length

/-- The tiles that the records in staging take, 16 to a tile (R292, R401). -/
def syncStaging (s : State) : State := syncTiles s 2 (stagedCount s.cave / 16) (stagedCount s.cave % 16 != 0)

/-- Staging takes one record more: at most 4,096, in the tiles of its region that are in service (R292, R294, R401). -/
def stagingRoom (s : State) : Bool :=
  decide (stagedCount s.cave < 4096) && (stagedCount s.cave % 16 != 0 || !(freeIn s (regionOf s.vat 2)).isEmpty)

/-- A record staged until Rind can program it, or counted where it finds no room (R294, R401). -/
def stageRec (s : State) (r : CaveRec) : State :=
  if stagingRoom s then syncStaging (s.onCave fun c => { c with staged := c.staged ++ [r] }) else s.onCave fun c => { c with overflow := c.overflow + 1 }

/-- A record programmed (R397, R403, R476); what then stands in staging keeps its tiles. -/
def programNow (s : State) (r : CaveRec) : State :=
  let s := syncStaging (s.onCave fun c => programRec c r)
  if caveClass r.code = .single then latchBus s 7 else s

/-- A record committed: through a staging tile to its store, or staged while Rind may not program (R19, R397, R401, R403, R451). -/
def commitRec (s : State) (r : CaveRec) : State := if rindCommits s then programNow (passBytes 2 (recBytes r) s) r else stageRec s r

/-- A record of an event that occurs now (R395). -/
def newRec (s : State) (source code : Nat) (p0 p1 p2 : Word32) : CaveRec :=
  { seq := 0, source := source, code := code, opsec := s.power.opsec, subsec := subsec s, cycle := s.power.cycle,
    p0 := p0, p1 := p1, p2 := p2, rept := 1 }

/-- The open record, which stands in staging, committed (R401, R403). -/
def commitOpen (s : State) : State :=
  match s.cave.open_ with
  | none => s
  | some r =>
    let s := s.onCave fun c => { c with open_ := none }
    if rindCommits s then programNow s r else stageRec s r

/-- Rind decides whether an event is recorded and whether it shares the open record (R401, R402, R403); while Rind does not run, the event waits in staging
as a record of its own. -/
def record (s : State) (source code : Nat) (p0 p1 p2 : Word32) : State :=
  let r := newRec s source code p0 p1 p2
  let fresh (s : State) : State := syncStaging (s.onCave fun c => { c with open_ := some r, openEnd := s.time.gtc + c.repeatWin * 400000 })
  match caveClass code with
  | .none => s
  | .single => if s.fw.rind = .running then commitRec (commitOpen s) r else stageRec s r
  | .coalesce =>
    if s.fw.rind = .running then
      match s.cave.open_ with
      | some o =>
        if o.code = code ∧ o.source = source ∧ o.p0 = p0 ∧ s.time.gtc < s.cave.openEnd then
          s.onCave fun c => { c with open_ := some { o with rept := satN 65535 (o.rept + 1) } }
        else fresh (commitOpen s)
      | none => fresh s
    else stageRec s r

/-- A free choice as a 32-bit word. -/
def drawWord (s : State) : Word32 × State := let d := draw s; (w32 d.1, d.2)

/-- The completion of a rule's command that is not OK is recorded in the Cave (R422). What the record says the manual does not state: its source, code and
parameters are free, but it is no CLEAR record (log entry 98). -/
def recordRuleEnd (s : State) : State :=
  let a := draw s
  let b := draw a.2
  let p := drawWord b.2
  let q := drawWord p.2
  let r := drawWord q.2
  let code := if b.1 % 65536 = evClear then 0 else b.1 % 65536
  let s := r.2
  let x := newRec s (a.1 % 256) code p.1 q.1 r.1
  if s.fw.rind = .running then commitRec (commitOpen s) x else stageRec s x

/-- The valid records held in the store of the mode, in SEQ order (R396, R405, R408). -/
def heldRecs (c : Cave) : List CaveRec :=
  let rs : List CaveRec := match c.mode with
    | .normal => c.ring.map (·.2)
    | .degraded => c.failsafe
    | .volatile => c.volatileRing
  rs.filter (·.valid)

/-- OLDEST_SEQ (R405): the oldest record held in the store of the mode, NEXT_SEQ when none is. -/
def oldestSeq (c : Cave) : Nat := match (heldRecs c).head? with | some r => r.seq | none => c.nextSeq

/-- VISIBLE_SEQ (R405): the newest CLEAR record held, else OLDEST_SEQ. -/
def visibleSeq (c : Cave) : Nat :=
  match ((heldRecs c).filter fun r => r.code = evClear).getLast? with
  | some r => r.seq
  | none => oldestSeq c

/-! ## Triggers -/

/-- The interval between history rows: 1 µs in RUN, 10 µs in DOZE (R260). -/
def rowInterval (s : State) : Nat := if s.power.mode = .doze then 4000 else 400

/-- The 68 history nodes in row order (R260). -/
def historyNodes : List Nat := List.range 64 ++ [196, 197, 198, 199]

/-- The first row time at or after a GTC (R260). -/
def rowFrom (t iv : Nat) : Nat := (t + iv - 1) / iv * iv

/-- A capture slot. -/
def capOf (s : State) (k : Nat) : Capture := Tbl.get {} s.meas.captures k

/-- A capture slot written. -/
def setCap (s : State) (k : Nat) (c : Capture) : State := s.onMeas fun m => { m with captures := Tbl.put m.captures k c }

/-- A trigger with stamp `t` reaches a capture slot: an ARMED one starts to fill, a FILLING or HELD one counts it (R262, R263); the rows before the trigger
are copied at the end of the row. -/
def fireCapture (s : State) (k src code t : Nat) : State :=
  let c := capOf s k
  match c.state with
  | .armed =>
    let iv := rowInterval s
    setCap s k { c with state := .filling, trigSource := src, trigCode := code, trigGtc := t, interval := iv, firstRow := rowFrom (t - c.pre * 400) iv,
                        rows := [], copied := false, lostRows := 0, ignored := 0 }
  | .filling | .held => setCap s k { c with ignored := satN 4294967295 (c.ignored + 1) }
  | .empty => s

/-- A capture slot's trigger matches an event (R262, R361). -/
def captureMatches (s : State) (c : Capture) (src code : Nat) : Bool :=
  (c.trigKind == 0 && code == evTrip && ((maskOf s src).any fun u => (maskOf s c.trigUnit).contains u))
    || (c.trigKind == 1 && src == c.trigArg % 256 && code == c.trigArg / 256 % 65536)

/-- An event meets the four capture slots (R262). -/
def captureTriggers (s : State) (src code t : Nat) : State :=
  [0, 1, 2, 3].foldl (fun s k => if (capOf s k).state ≠ .empty ∧ captureMatches s (capOf s k) src code then fireCapture s k src code t else s) s

/-- A slot of the measurement schedule in GTC counts: 100 ns in RUN, 800 ns in DOZE (R229). -/
def slotGtc (s : State) : Nat := if s.power.mode = .doze then 320 else 40

/-- The ST ring on which a sequence streams (R359). -/
def streamOf (s : State) (id : Nat) : Option (Nat × Stream) := s.meas.streams.find? fun p => p.2.seqId == id && p.2.stopped.isNone

/-- A user sequence written. -/
def setSeq (s : State) (id : Nat) (q : Sequence) : State := s.onMeas fun m => { m with seqs := Tbl.put m.seqs id q }

/-- A filter's factor (R239). -/
def filterN (f : Nat) : Nat := 4 ^ f

/-- The GTC at which a sequence's burst ends (R252), none without a burst; its slots are counted with their present length (DESIGN CHOICE, log entry 120). -/
def burstEnd (s : State) (q : Sequence) : Option Nat :=
  q.burst.map fun b => b.2.1 + q.nodes.length * filterN q.filter * q.spacing * slotGtc s

/-- A burst is over at a GTC: its last conversion is made and its last slot has passed (R252). -/
def burstOver (s : State) (q : Sequence) (g : Nat) : Bool :=
  match burstEnd s q with | some e => decide (q.nodes.length ≤ q.entry ∧ e ≤ g) | none => false

/-- A burst runs at a GTC (R252). -/
def burstRuns (s : State) (q : Sequence) (g : Nat) : Bool := q.burst.isSome && !burstOver s q g

/-- What the end of a burst brings (R253): with the pending latch set, the next burst is to start in the slot after it, with LATE_START. -/
def rollBurst (s : State) (q : Sequence) (g : Nat) : Sequence :=
  if burstOver s q g then { q with burst := none, armed := q.latch.map fun t => (t, (burstEnd s q).getD 0, true), latch := none } else q

/-- A trigger with time `t` reaches a user sequence (R252, R253): it starts a burst, sets the latch, or is dropped and counted. -/
def seqTrigger (s : State) (id t : Nat) : State :=
  match Tbl.find s.meas.seqs id with
  | none => s
  | some q =>
    let now := Nat.max t s.time.gtc
    let q := rollBurst s q now
    if (streamOf s id).isNone ∨ q.suspended then s
    else if q.burst.isNone ∧ q.armed.isNone then
      let at_ := Nat.max (t + q.trigDelay * 40) s.time.gtc
      setSeq s id { q with armed := some (t, (at_ + slotGtc s - 1) / slotGtc s * slotGtc s, false) }
    else if q.latch.isNone then setSeq s id { q with latch := some t }
    else (setSeq s id q).onMeas fun m => { m with overruns := Tbl.put m.overruns id (satN 4294967295 (Tbl.get 0 m.overruns id + 1)) }

/-- An event meets the user sequences (R251, R252). -/
def seqTriggers (s : State) (src code t : Nat) : State :=
  (List.range 8).foldl (fun s id =>
    match Tbl.find s.meas.seqs id with
    | some q => if q.trigKind = 1 ∧ src = q.trigArg % 256 ∧ code = q.trigArg / 256 % 65536 then seqTrigger s id t else s
    | none => s) s

/-- An entry added to the in-flight command table, in fetch order (R411). -/
def addFlight (s : State) (o : Origin) (op : Op) (sub : Submission) (ph : Phase) : State :=
  s.onLink fun l => { l with flights := l.flights ++ [{ id := l.nextFlight, origin := o, op := op, sub := sub, phase := ph }],
                             nextFlight := l.nextFlight + 1 }

/-- A descriptor the device makes itself: for a recipe action or a fallback (R333, R422). -/
def ownSub (h : Word32) (flags : Nat) (time : Nat) (args : List Byte) : Submission :=
  { sq := 16, flags := BitVec.ofNat 8 flags, tag := 0, gen := 0, handle := h, time := time, bufAddr := 0, bufLen := 0, args := args, data := [] }

/-- The pairs of UNIT_CONFIG_WRITE that a recipe's SETTINGS give a unit, as the buffer of a command (R354, R422). -/
def settingsSub (s : State) (r : Recipe) (unit time : Nat) : Submission :=
  let ps := r.settings.filter fun p => p.1 == unit
  { ownSub (handleOf s unit) 0 time (BitVec.ofNat 8 ps.length :: List.replicate 35 0) with
    bufAddr := 1, bufLen := 8 * ps.length,
    data := ps.flatMap fun p => toLe p.2.1 2 ++ [0, 0] ++ toLe p.2.2.toNat 4 }

/-- Check 6 of R338. -/
def check6 (s : State) (op : Op) : Option Nat :=
  if s.fw.safeHold ∧ ¬ op.inSafeHold then some stState
  else if s.fw.rind ≠ .running ∧ op.needsRind then some stBusy
  else none

/-- The scheduled actions the Press holds (R340): those that wait for their TIME, and those whose TIME has come and whose leaves are not free (R341). -/
def scheduledCount (s : State) : Nat := (s.link.flights.filter fun f => f.phase == .scheduled || (f.phase == .deferred && f.sub.time != 0)).length

/-- A command of the device's own handed to the Press for a GTC (R340, R422), when it passes the checks a host command would meet: a TIME within 10 s, the
device state, the Press's capacity; where it does not, its completion is recorded. The handle is checked in the execution tick. -/
def issueOwn (s : State) (op : Op) (sub : Submission) : State :=
  if s.time.gtc + 4000000000 < sub.time ∨ (check6 s op).isSome ∨ 256 ≤ scheduledCount s then recordRuleEnd s
  else addFlight s .firmware op sub .scheduled

/-- A recipe rule's action issued as a scheduled command (R422). -/
def issueRule (s : State) (rc : Recipe) (r : Rule) (t : Nat) : State :=
  let at_ := t + usGtc r.delay
  let h := handleOf s r.unit
  match r.action with
  | 0 => issueOwn s .unitOff (ownSub h 0 at_ [])
  | 1 => issueOwn s .unitOn (ownSub h 0 at_ [])
  | 2 => issueOwn s .unitOff (ownSub h 4 at_ [])
  | _ => issueOwn s .unitConfigWrite (settingsSub s rc r.unit at_)

/-- An event meets the rules of the recipe in force, while Paste serves (R422). -/
def ruleTriggers (s : State) (e : RawEvent) (t : Nat) : State :=
  match s.fw.recipe with
  | some rc =>
    if e.byRule ∨ s.fw.paste ≠ .serving then s
    else (rc.rules.filter fun r => r.code == e.code && r.source == e.source).foldl (fun s r => issueRule s rc r t) s
  | none => s

/-- The event bits of the two-wire status word (R476). -/
def busLatches (s : State) (code : Nat) : State :=
  if code = evTrip then latchBus s 0 else if code = evLock then latchBus s 1 else if code = evShed then latchBus s 2 else s

/-! ## The router (R376 to R381) -/

/-- EVENT_RATE of a source (R380). -/
def rateOf (s : State) (src : Nat) : Nat := (Tbl.get 0x9004 s.router.rate src).toNat

/-- DEPTH of a source's bucket (R380). -/
def depthOf (s : State) (src : Nat) : Nat := bits (rateOf s src) 13 8

/-- RING of a source (R379): EV0 to EV3. -/
def evRingOf (s : State) (src : Nat) : Nat := (Tbl.get 0 s.router.vecMap src).toNat % 4

/-- Tokens of a source; a bucket starts full (R381). -/
def tokensOf (s : State) (src : Nat) : Nat := Tbl.get (depthOf s src) s.router.tokens src

/-- The refill timer of a source brought up to a time: one token for each REFILL period that has ended, up to DEPTH (R381, R491). -/
def refill (s : State) (src t : Nat) : State :=
  let period := (bits (rateOf s src) 7 0 + 1) * 4000
  let from_ := Tbl.get 0 s.router.refillAt src
  let k := (t - from_) / period
  if k = 0 then s
  else
    let n := satN (depthOf s src) (tokensOf s src + k)
    s.onRouter fun x => { x with refillAt := Tbl.put x.refillAt src (from_ + k * period), tokens := Tbl.put x.tokens src n }

/-- Ring set index of an event ring (R313). -/
abbrev evIndex (r : Nat) : Nat := 40 + r

/-- The tiles of an event ring follow its held entries (R378). -/
def syncEvTiles (s : State) (r : Nat) : State :=
  syncTiles s (ringHolder (evIndex r)) (Tbl.get [] s.link.evHeld r).length (!(Tbl.get [] s.link.evOpen r).isEmpty)

/-- The tile being filled for an event ring closed (R378). -/
def closeEvTile (s : State) (r : Nat) : State :=
  match Tbl.get [] s.link.evOpen r with
  | [] => s
  | es => syncEvTiles (s.onLink fun l => { l with evHeld := Tbl.put l.evHeld r (Tbl.get [] l.evHeld r ++ [es]), evOpen := Tbl.del l.evOpen r }) r

/-- An event lost to its ring, counted for the LOST field of the next entry (R329, R381, R294). -/
def loseEvent (s : State) (r : Nat) : State := s.onLink fun l => { l with evLost := Tbl.put l.evLost r (satN 65535 (Tbl.get 0 l.evLost r + 1)) }

/-- An event written to the tile of its ring (R378); the newest is lost when the ring's holder has no tile (R294). -/
def stageEvent (s : State) (r : Nat) (e : Event) : State :=
  if (Tbl.get [] s.link.evOpen r).isEmpty ∧ ¬ tileAvailable s (ringHolder (evIndex r)) then loseEvent s r
  else
    let s := (fun s => syncEvTiles s r) <| s.onLink fun l =>
      { l with evOpenAt := if (Tbl.get [] l.evOpen r).isEmpty then Tbl.put l.evOpenAt r e.gtc else l.evOpenAt,
               evOpen := Tbl.put l.evOpen r (Tbl.get [] l.evOpen r ++ [{ e with lost := Tbl.get 0 l.evLost r }]),
               evLost := Tbl.del l.evLost r }
    if (Tbl.get [] s.link.evOpen r).length ≥ 16 then closeEvTile s r else s

/-- DELIVER, routing and the bucket, in that order; a refill comes before the event (R381, R491). -/
def deliver (s : State) (e : RawEvent) (t : Nat) : State :=
  let s := refill s e.source t
  let r := evRingOf s e.source
  let ev : Event := { gtc := t, source := e.source, code := e.code, p0 := e.p0, p1 := e.p1, p2 := e.p2, unsync := !s.time.synced, lost := 0,
                        direct := if bit (rateOf s e.source) 14 then some ((Tbl.get 0 s.router.vecMap e.source).toNat / 4) else none }
  if !bit (rateOf s e.source) 15 then s
  else if !(Tbl.get {} s.link.rings (evIndex r)).everUp then
    s.onRouter fun x => { x with unrouted := satN 4294967295 (x.unrouted + 1) }
  else if depthOf s e.source = 0 then stageEvent s r ev
  else if 0 < tokensOf s e.source then
    stageEvent (s.onRouter fun x => { x with tokens := Tbl.put x.tokens e.source (tokensOf s e.source - 1) }) r ev
  else if unlimited e.source e.code then stageEvent s r ev
  else loseEvent (s.onRouter fun x => { x with drops := Tbl.put x.drops e.source (satN 65535 (Tbl.get 0 x.drops e.source + 1)) }) r

/-- An event enters the router with stamp `t` (R375, R378): it is offered to Rind and to its triggers, and delivered. -/
def ingress (s : State) (e : RawEvent) (t : Nat) : State :=
  if sourceReserved e.source then s
  else
    let s := record s e.source e.code e.p0 e.p1 e.p2
    let s := busLatches s e.code
    let s := captureTriggers s e.source e.code t
    let s := seqTriggers s e.source e.code t
    let s := ruleTriggers s e t
    deliver s e t

/-- An event enters the router with a stamp, which is then the last one given. -/
def enter (s : State) (e : RawEvent) (t : Nat) : State := ingress (s.onRouter fun r => { r with lastStamp := t }) e t

/-- GTC counts from a tick's boundary to the hand-over of the Press's events: cycle 341 (R103, R375). -/
def handGtc (s : State) : Nat := if s.power.mode = .doze then 2728 else 341

/-- The cycle in which an event of a producer other than the Press enters: the present one, or the next after the last stamp given, so that the router's
order is that in which events enter; within a tick it stays before that tick's hand-over, or, where the tick's has come, before the next one's (R375, R376,
log entry 99). -/
def entryStamp (s : State) : Nat :=
  let c := if s.power.mode = .doze then 8 else 1
  let hand := s.time.gtc + handGtc s
  let top := (if s.router.lastStamp < hand then hand else hand + tickGtc s) - c
  Nat.max s.time.gtc (Nat.max s.router.lastStamp (Nat.min top (s.router.lastStamp + c)))

/-- An event of a producer other than the Press, stamped as it enters (R375). -/
def raise (s : State) (source code : Nat) (p0 p1 p2 : Word32) : State :=
  enter s { source := source, code := code, p0 := p0, p1 := p1, p2 := p2 } (entryStamp s)

/-- A security event (R14, R24, R410). -/
def security (s : State) (kind master what : Nat) : State := raise s 127 evSecurity (w32 kind) (w32 master) (w32 what)

/-- A change attempted by a party that may not make it (R24): a protected write. The code of the bus master is a free choice, and where no address is written
so is the address (log entry 96). -/
def refusedChange (what : Nat) (s : State) : State := let d := draw s; security d.2 1 d.1 what

/-- An event put in its place by source, after those of the same source (R376). -/
def insertEvent (e : RawEvent) : List RawEvent → List RawEvent
  | [] => [e]
  | x :: xs => if e.source < x.source then e :: x :: xs else x :: insertEvent e xs

/-- The events of a tick in the router's order (R376). -/
def sortEvents (es : List RawEvent) : List RawEvent := es.foldl (fun acc e => insertEvent e acc) []

/-- The stamp of the Press's hand-over: cycle 341 of the tick in progress (R375), not before an event that has entered (R376). -/
def pressStamp (s : State) : Nat := Nat.max s.router.lastStamp (s.time.gtc + handGtc s)

/-- The tick's spare phase (R103): the events of the tick in progress enter the router together, by source, and each source's as it raised them (R375, R376).
Where no tick is in progress, as after a wake between two boundaries, they wait for the next one's. -/
def closeTick (s : State) : State :=
  if s.time.gtc % tickGtc s = 0 then
    (sortEvents s.press.tickq).foldl (fun st e => enter st e (pressStamp s)) (s.onPress fun p => { p with tickq := [] })
  else s

/-- HOOP_STATE of a hoop or ROOT is raised once in a tick, with the word as the tick leaves it (R374). -/
def sameReport (a b : RawEvent) : Bool := a.code == evHoopState && b.code == evHoopState && a.source == b.source

/-- What the present command has raised joins the events of the tick in progress (R103, R375). -/
def joinTick (s : State) : State :=
  s.onPress fun p => { p with evq := [], tickq := (p.tickq.filter fun a => !p.evq.any (sameReport a)) ++ p.evq }

end Sys2Proof.Machine
end

