-- ==== Sys2Proof/Machine/Reals.lean ====
section
/-!
DEFINITION. Machine/Reals.lean: the two irrational functions the thermal models need, in fixed point with 128 fractional bits (R148, R156). The manual
defines the values and gives no precision beyond the 32 fractional bits of the nodes; the error here stays below 2⁻¹⁰⁰ (log entry 8).
-/

namespace Sys2Proof.Machine

/-- 1 in fixed point. -/
abbrev fixedOne : Int := 340282366920938463463374607431768211456

/-- A rational in fixed point, rounded down. -/
def toFixed (x : Rat) : Int := ratFloor (x * (fixedOne : Rat))

/-- `n` terms of the series of exp(−x), from the k-th on, `t` being the k-th. -/
def expTerms (x : Int) : Nat → Nat → Int → Int
  | 0, _, _ => 0
  | n + 1, k, t => t + expTerms x n (k + 1) (-(t * x / fixedOne) / ((k + 1 : Nat) : Int))

/-- A fixed-point number squared `n` times. -/
def squareTimes : Nat → Int → Int
  | 0, e => e
  | n + 1, e => squareTimes n (e * e / fixedOne)

/-- exp(−x) for x ≥ 0: the series at x / 1,024, squared ten times; 0 where it lies below the resolution. -/
def expNeg (x : Rat) : Rat := if 88 ≤ x then 0 else (squareTimes 10 (expTerms (toFixed (x / 1024)) 20 0 fixedOne) : Rat) / (fixedOne : Rat)

/-- The whole part of the square root of a number below 2⁴⁰⁰, bit by bit. -/
def wholeSqrt (n : Nat) : Nat := (List.range 200).foldr (fun k r => r + (if (r + 2 ^ k) * (r + 2 ^ k) ≤ n then 2 ^ k else 0)) 0

/-- The square root of a rational that is not negative. -/
def sqrtRat (x : Rat) : Rat := (wholeSqrt (toFixed x * fixedOne).toNat : Rat) / (fixedOne : Rat)

end Sys2Proof.Machine
end

