-- ==== Sys2Proof/Machine/Models.lean ====
section
/-!
DEFINITION. Machine/Models.lean: the wire and FET models, the FET event energy and the let-through of a leaf (R143 to R158).
-/

namespace Sys2Proof.Machine

/-- One kelvin in the held temperatures' steps (R145). -/
abbrev oneK : Int := 4294967296

/-- A temperature in 1/16 °C as a held temperature. -/
def sixteenth (t : Int) : Int := t * 268435456

/-- A held temperature in °C. -/
def celsius (t : Int) : Rat := (t : Rat) / 4294967296

/-- A temperature in K as steps of the held value. -/
def stepsOf (x : Rat) : Int := roundStep (x * 4294967296)

/-! ## Ambient and case temperature (R146) -/

/-- The node of a thermistor (R228). -/
def ntcNode (n : Nat) : Nat := 218 + n

/-- A thermistor's reading in 1/16 °C, none when its sample is suspect or out of −50 °C to 175 °C (R146). -/
def ntcReading (s : State) (n : Nat) : Option Int :=
  let d := nodeOf s (ntcNode n)
  let e := match s.fw.profile with | some p => p.ntc.getD n (0, 0) | none => (0, 0)
  let t := Config.ntcTemp e.1 e.2 d.value
  if d.quality = .suspect then none else if t < -800 ∨ 2800 < t then none else some t

/-- A thermistor has been suspect or out of range for 1 ms (R146). -/
def ntcFailed (s : State) (n : Nat) : Bool := 1000 ≤ Tbl.get 0 s.press.ntcBad n

/-- The temperature a model takes from a thermistor, with its offset and its substitute in 1/16 °C (R146): the substitute when none is named or the
thermistor has failed; its last usable reading otherwise. -/
def thermistor (s : State) (n : Nat) (offset fail : Int) : Int :=
  if 8 ≤ n then sixteenth fail
  else if ntcFailed s n then sixteenth fail
  else match ntcReading s n with
    | some t => sixteenth (t + offset)
    | none =>
      match heldValue s (ntcNode n) with
      | some v =>
        let e := match s.fw.profile with | some p => p.ntc.getD n (0, 0) | none => (0, 0)
        sixteenth (Config.ntcTemp e.1 e.2 v + offset)
      | none => sixteenth fail

/-- T_a of a leaf (R146). -/
def ambientOf (s : State) (u : Nat) : Int := let e := (leafOf s u).env; thermistor s e.ntcWire e.ambOffset e.ambFail

/-- T_case of a leaf (R146). -/
def caseOf (s : State) (u : Nat) : Int := let e := (leafOf s u).env; thermistor s e.ntcCase e.caseOffset e.caseFail

/-- The substitute is in use (R146). -/
def substitutes (s : State) (n : Nat) : Bool := 8 ≤ n || ntcFailed s n

/-- The wire model runs: the leaf's record describes a wire. Without a profile it does not (R226). -/
def hasWire (e : UnitRec) : Bool := e.wireCC != 0 && e.wireCI != 0 && e.wireRCI != 0 && e.wireRIA != 0

/-- The leaf has a MOSFET the Press models (R222). -/
def hasFet (e : UnitRec) : Bool := e.tau1 != 0 && e.tau2 != 0 && e.tau3 != 0

/-- The wire model of a leaf runs: that of a live member of a parallel hoop other than its slot stands still (R147). -/
def runsWire (s : State) (u : Nat) : Bool := hasWire (leafOf s u).env && (slotOf s u == u || (leafOf s u).st == .retired)

/-- The thermistors timed, and NTC_FAULT raised once for each that fails while a model uses it (R146). -/
def ntcStep (s : State) : State :=
  (List.range 8).foldl (fun s n =>
    let used := leafNums.any fun u => let e := (leafOf s u).env; (runsWire s u && e.ntcWire == n) || (hasFet e && e.ntcCase == n)
    if (ntcReading s n).isSome then s.onPress fun p => { p with ntcBad := Tbl.del p.ntcBad n, ntcFault := p.ntcFault.filter (· != n) }
    else
      let s := s.onPress fun p => { p with ntcBad := Tbl.put p.ntcBad n (satN 1000 (Tbl.get 0 p.ntcBad n + tickUs s)) }
      if ntcFailed s n && used && !s.press.ntcFault.contains n then
        raiseP (s.onPress fun p => { p with ntcFault := p.ntcFault ++ [n] }) 75 evNtcFault (w32 n) (w32i (nodeOf s (ntcNode n)).value) 0
      else s) s

/-! ## Wire model (R145) -/

/-- One update of the wire nodes by the equations of R145: mean squared current in A², step in s. -/
def wireUpdate (e : UnitRec) (ta tc ti : Int) (i2 dt : Rat) : Int × Int :=
  let p := i2 * ((e.wireRho20 : Rat) / 1000000) * (1 + (e.alpha : Rat) / 1000000 * (celsius tc - 20))
  let q := (celsius tc - celsius ti) / ((e.wireRCI : Rat) / 1000)
  (tc + stepsOf (dt * (p - q) / ((e.wireCC : Rat) / 1000)),
   ti + stepsOf (dt * (q - (celsius ti - celsius ta) / ((e.wireRIA : Rat) / 1000)) / ((e.wireCI : Rat) / 1000)))

/-- The wire nodes after `t` seconds at a constant current, in closed form (R145, R156): mean squared current in A², ambient and nodes as held. The two
exponentials of the linear system about its steady state (R147). Where the wire has no steady state, which check 0x08 of R165 keeps a profile from, the
nodes stand (log entry 8). -/
def wireAdvance (e : UnitRec) (ta tc ti : Int) (i2 t : Rat) : Int × Int :=
  let rci := (e.wireRCI : Rat) / 1000
  let ria := (e.wireRIA : Rat) / 1000
  let cc := (e.wireCC : Rat) / 1000
  let ci := (e.wireCI : Rat) / 1000
  let x := i2 * (e.wireRho20 : Rat) / 1000000
  let al := (e.alpha : Rat) / 1000000
  let den := 1 - x * al * (rci + ria)
  if den ≤ 0 then (tc, ti)
  else
    let amb := celsius ta
    let sc := amb + x * (1 + al * (amb - 20)) * (rci + ria) / den
    let si := amb + (sc - amb) * ria / (rci + ria)
    let a := (x * al - 1 / rci) / cc
    let b := 1 / (rci * cc)
    let c := 1 / (rci * ci)
    let d := -(1 / rci + 1 / ria) / ci
    let r := sqrtRat ((a - d) * (a - d) / 4 + b * c)
    let l1 := (a + d) / 2 + r
    let l2 := (a + d) / 2 - r
    let e1 := expNeg (-l1 * t)
    let e2 := expNeg (-l2 * t)
    let y1 := celsius tc - sc
    let y2 := celsius ti - si
    (stepsOf (sc + (e1 * ((a - l2) * y1 + b * y2) - e2 * ((a - l1) * y1 + b * y2)) / (2 * r)),
     stepsOf (si + (e1 * (c * y1 + (d - l2) * y2) - e2 * (c * y1 + (d - l1) * y2)) / (2 * r)))

/-- The wire model of a leaf in step 3 of a tick: every tenth tick in RUN, every tick in DOZE (R145); a slot's takes the summed current, a retired
member's its own (R147). -/
def wireStep (s : State) (u : Nat) : State :=
  let e := (leafOf s u).env
  if !hasWire e then s
  else
    let i := if slotOf s u = u then unitMa s u else leafMa s u
    let doze := s.power.mode == .doze
    let ta := ambientOf s u
    let amb := substitutes s e.ntcWire
    onLeaf s u fun l =>
      let g := l.led
      let g := { g with i2sum := g.i2sum + i * i, i2n := g.i2n + 1, wireTicks := g.wireTicks + 1, ambFailed := amb }
      if doze || 10 ≤ g.wireTicks then
        let (tc, ti) := wireUpdate e ta g.tc g.ti (g.i2sum / (g.i2n : Rat) / 1000000) (if doze then 8 / 1000000 else 1 / 100000)
        { l with led := { g with tc := tc, ti := ti, i2sum := 0, i2n := 0, wireTicks := 0 } }
      else { l with led := g }

/-! ## FET model (R148) -/

/-- g of R148: 1 − exp(−dt/τ), both in µs. -/
def fetGain (tau us : Nat) : Rat := 1 - expNeg ((us : Rat) / (tau : Rat))

/-- One stage of the Foster network over a tick: power in W, RTH in mK/W (R148). -/
def fetStage (th : Int) (p : Rat) (rth tau us : Nat) : Int :=
  th + stepsOf ((p * ((rth : Rat) / 1000) - celsius th) * fetGain tau us)

/-- One stage after a time at constant power, in closed form (R148, R156): power in W, RTH in mK/W, TAU and the time in µs. -/
def fetAdvance (th : Int) (p : Rat) (rth tau us : Nat) : Int :=
  let top := p * ((rth : Rat) / 1000)
  stepsOf (top + (celsius th - top) * expNeg ((us : Rat) / (tau : Rat)))

/-- The power in the MOSFET, W: V_DS in mV, current in mA (R148). -/
def fetPower (e : UnitRec) (tj : Int) (vds i : Rat) : Rat :=
  let rds := (e.rdson25 : Rat) / 1000000 * (1 + (e.rdsonTc : Rat) / 1000000 * (celsius tj - 25))
  ratMax (vds * i / 1000000) (i * i / 1000000 * rds)

/-- The FET model of one leaf in step 3 of a tick; the members of a parallel hoop share V_DS and keep their own (R148, R150). -/
def fetStep (s : State) (u : Nat) : State :=
  let e := (leafOf s u).env
  if !hasFet e then s
  else
    let i := leafMa s u
    let k := slotOf s u
    let p := fetPower e (leafOf s u).led.tj (vdsMv s k (leafMa s k)) (if leafKind u = .hold then ratAbs i else i)
    let us := tickUs s
    let tcase := caseOf s u
    let cf := substitutes s e.ntcCase
    onLeaf s u fun l =>
      let g := l.led
      let th1 := fetStage g.th1 p e.rth1 e.tau1 us
      let th2 := fetStage g.th2 p e.rth2 e.tau2 us
      let th3 := fetStage g.th3 p e.rth3 e.tau3 us
      { l with led := { g with th1 := th1, th2 := th2, th3 := th3, tj := tcase + th1 + th2 + th3, caseFailed := cf },
               tel := { l.tel with pTicks := windowAdd s.time.gtc p l.tel.pTicks } }

/-! ## Episodes (R152) -/

/-- An episode opens: E_ev restarts from 0 (R152). A leaf without a modelled MOSFET has none (R222). -/
def openEpisode (l : Leaf) : Leaf := if hasFet l.env then { l with led := { l.led with evOpen := true, evTail := false, eEv := 0 } } else l

/-- The open episode closes (R152). -/
def closeEpisode (l : Leaf) : Leaf :=
  if l.led.evOpen then { l with led := { l.led with evOpen := false, evTail := false, eEvLast := l.led.eEv } } else l

/-- A turn-off: a CLAMP turn-off opens an episode or continues the open one; any open episode then closes on the current (R152). A unit whose gate is off
already turns nothing off. -/
def tailEpisode (l : Leaf) : Leaf :=
  if !l.st.conducting then l
  else if l.env.clamp && !l.led.evOpen then let o := openEpisode l; { o with led := { o.led with evTail := o.led.evOpen } }
  else { l with led := { l.led with evTail := true } }

/-- A turn-off edge or cycle trip of a generator in ON: of a CLAMP unit a CLAMP turn-off (R86, R152). In LIMIT the open episode stays as it is. -/
def pwmEpisode (s : State) (ch : Nat) : State :=
  if (vleaf s ch).st = .on then onLeaf s ch fun l => if l.env.clamp && !l.led.evOpen then { tailEpisode { l with st := .on } with st := l.st } else l
  else s

/-- E_ev over a tick, and the close of an episode whose current has fallen below 1 % of I_RATED after a turn-off (R152). -/
def episodeStep (s : State) (u : Nat) : State :=
  let l := leafOf s u
  if !l.led.evOpen || !hasFet l.env then s
  else
    let i := unitMa s u
    let e := vdsMv s u (leafMa s u) * i * (tickUs s : Rat) / 1000000000
    onLeaf s u fun l =>
      let l := { l with led := { l.led with eEv := l.led.eEv + e } }
      if l.led.evTail && decide (ratAbs i * 100 < (l.env.iRated : Rat)) then closeEpisode l else l

/-! ## Let-through (R153) -/

/-- The integral after one current sample of `ts` µs (R153); its reset is `ltClearOp`. -/
def ltSample (g : Ledger) (iRated : Nat) (i : Rat) (ts : Nat) : Ledger :=
  let above := decide ((iRated : Rat) < ratAbs i)
  let g := if above then { g with ltRunning := true, ltQuiet := 0 } else g
  if g.ltRunning then
    { g with lt := g.lt + i * i * (ts : Rat) / 1000000000000, ltQuiet := if above then g.ltQuiet else g.ltQuiet + ts }
  else g

/-- The time in µs a current sample stands for (R153). -/
def sampleUs (s : State) : Nat := if s.power.mode = .doze then 10 else 1

/-- A current sample of a leaf enters its let-through integral; a parallel hoop's takes the sum at its slot's sample, a retired member's its own (R143,
R153). -/
def ltStep (s : State) (u : Nat) : State :=
  if (leafOf s u).env.iRated = 0 then s
  else if slotOf s u = u then
    let i := unitMa s u
    onLeaf s u fun l => { l with led := ltSample l.led l.env.iRated i (sampleUs s) }
  else if (leafOf s u).st = .retired then
    let i := leafMa s u
    onLeaf s u fun l => { l with led := ltSample l.led l.env.iRated i (sampleUs s) }
  else s

/-- LT_CLEAR of quiet current ends the integral (R153). -/
def ltClearOp (u : Nat) (s : State) : State :=
  let l := leafOf s u
  if l.led.ltRunning ∧ l.env.ltClear * 1000 ≤ l.led.ltQuiet then
    onLeaf s u fun l => { l with led := { l.led with lt := 0, ltRunning := false, ltQuiet := 0 } }
  else s

/-! ## Bounds (R115, R143) -/

/-- The wire bound: T_WIRE_MAX − WIRE_MARGIN, as a held temperature (R115). -/
def wireBound (e : UnitRec) : Int := sixteenth (e.tWireMax - e.wireMargin)

/-- A leaf's junction has reached TJ_MAX (R115). -/
def tjOver (l : Leaf) : Bool := hasFet l.env && decide (sixteenth l.env.tjMax ≤ l.led.tj)

/-- The quantities of a leaf at or above their bounds, bit k − 1 for quantity k of LEDGER_OVER (R115, R144). The values compared, here and at re-arm, are
those held, with their 32 fractional bits, not read out to 1/1,024 K (DESIGN CHOICE, log entry 83). -/
def boundsHit (s : State) (u : Nat) : Nat :=
  let l := leafOf s u
  ofB (hasWire l.env && decide (wireBound l.env ≤ l.led.tc))
    + 2 * ofB ((liveOf s u).any fun m => tjOver (leafOf s m))
    + 4 * ofB (l.led.evOpen && hasFet l.env && decide ((l.env.eFetMax : Rat) ≤ l.led.eEv))
    + 8 * ofB (decide (l.env.ltBound ≠ 0) && decide ((l.env.ltBound : Rat) ≤ l.led.lt * 1000))

/-- The same of a retired member of a parallel hoop, which has its own quantities; the slot's, but for its junction, are the hoop's (R143, R144). -/
def ownBoundsHit (s : State) (m : Nat) : Nat :=
  let l := leafOf s m
  if slotOf s m = m then 2 * ofB (tjOver l)
  else
    ofB (hasWire l.env && decide (wireBound l.env ≤ l.led.tc)) + 2 * ofB (tjOver l)
      + 4 * ofB (l.led.evOpen && decide ((l.env.eFetMax : Rat) ≤ l.led.eEv))
      + 8 * ofB (decide (l.env.ltBound ≠ 0) && decide ((l.env.ltBound : Rat) ≤ l.led.lt * 1000))

/-- The start-up state of a leaf's models (R155). -/
def initModels (s : State) (u : Nat) : State :=
  let e := (leafOf s u).env
  let t := ambientOf s u + sixteenth e.wireStart
  let th3 := sixteenth e.fetStart
  let tj := caseOf s u + th3
  onLeaf s u fun l => { l with led := { l.led with tc := t, ti := t, th1 := 0, th2 := 0, th3 := th3, tj := tj, lt := 0, ltRunning := false,
                                                   ltQuiet := 0, eEv := 0, evOpen := false, evTail := false } }

/-! ## The fit of a ramp (R83, R84) -/

/-- The estimates of a completed ramp, none when the fit is discarded (R83, R84). R83 states no rounding of CAP_EST and RES_EST_I to whole units: to the
nearest, a tie upward (DESIGN CHOICE, log entry 86). -/
def fitResult (r : RampState) (out vd : Rat) : Option (Nat × Int) :=
  let det := r.sss * r.svv - r.ssv * r.ssv
  if r.fitN < 32 ∨ r.fitBad ∨ r.stalledOnce ∨ out * 5 < r.vdStart * 4 ∨ 998001 * (r.sss * r.svv) ≤ 1000000 * (r.ssv * r.ssv) ∨ det = 0 then none
  else
    let c := (r.ssi * r.svv - r.svi * r.ssv) / det
    let g := (r.svi * r.sss - r.ssi * r.ssv) / det
    some ((clampI 0 4000000 (ratRound c)).toNat, ratRound (g * vd))

/-! ## Pre-flight (R157, R158) -/

/-- CAP_EST in F × 10⁶ (µF) and RES_EST_I in mA of a unit (R83, R157). -/
def rampEnergy (s : State) (u : Nat) : Rat × Rat :=
  let l := leafOf s u
  let vd := supplyMv s u / 1000
  let v0 := outMv s u / 1000
  let done := (soft s u fVDone : Rat) / 1000
  if vd - done ≤ v0 then (0, 0)
  else
    let c := (l.ramp.capEst : Rat) / 1000000
    let ir := (l.ramp.resEst : Rat) / 1000
    let sl := (soft s u fRampRate : Rat) * 100
    let d := vd - v0
    (c * d * d / 2 + (if vd = 0 ∨ sl = 0 then 0 else ir * (vd * vd * vd - 3 * vd * v0 * v0 + 2 * v0 * v0 * v0) / (6 * vd * sl)),
     d * (c * sl + ir))

/-- The predicted rise of one stage in K: energy in J, power in W (R157). -/
def stageRise (epred ppk : Rat) (rth tau : Nat) : Rat :=
  let r := (rth : Rat) / 1000
  let c := if r = 0 then 0 else (tau : Rat) / 1000000 / r
  if c = 0 then ppk * r else ratMin (epred / c) (ppk * r)

/-- T_j,pred of one leaf (R157). -/
def tjPred (s : State) (m : Nat) (epred ppk : Rat) : Int :=
  let l := leafOf s m
  l.led.tj + stepsOf (stageRise epred ppk l.env.rth1 l.env.tau1 + stageRise epred ppk l.env.rth2 l.env.tau2
    + stageRise epred ppk l.env.rth3 l.env.tau3)

end Sys2Proof.Machine
end

