-- ==== Sys2Proof/Machine/Comparators.lean ====
section
/-!
DEFINITION. Machine/Comparators.lean: the comparator cells: INIT, latch and output, the threshold codes, the edge flags, the report at a tick boundary.
-/

namespace Sys2Proof.Machine

/-- A window monitor record (R280); those of WM16 to WM31 select the pin of their own number minus 16 after reset (R279). -/
def wmOf (s : State) (k : Nat) : WmRec := Tbl.get { src := k % 16 } s.cmp.wms k

/-- INIT of a cell (R277): trip and feed short cells released, window monitors by their record, every other asserted. -/
def initLevel (s : State) (c : Nat) : Bool :=
  if c < 64 then false
  else if 256 ≤ c ∧ c < 260 then false
  else if 276 ≤ c ∧ c < 340 then (if c % 2 = 0 then (wmOf s ((c - 276) / 2)).initLo else (wmOf s ((c - 276) / 2)).initHi)
  else true

/-- Privileged cells (R276): feed reverse and supply cells. -/
def privileged (c : Nat) : Bool := (260 ≤ c && c < 264) || (340 ≤ c && c < 344)

/-- The lower or upper cell of a monitor is enabled: its threshold is not 0 (R280). After reset WM16 to WM31 are disabled as all are. -/
def wmEnabled (s : State) (c : Nat) : Bool :=
  let w := wmOf s ((c - 276) / 2)
  if c % 2 = 0 then w.lower != 0 else w.upper != 0

/-- A window monitor's cell that is not enabled: off, and not asserted (R269, R280). -/
def wmOff (s : State) (c : Nat) : Bool := 276 ≤ c && c < 340 && !wmEnabled s c

/-! ## Threshold codes (R109, R184, R266) -/

/-- Gain of a code 0 to 3 (R77, R233). -/
def gainOf (g : Nat) : Nat := 10 * 2 ^ (g % 4)

/-- The number of DAC steps in a voltage in mV at the cell input, not rounded (R266). -/
def dacSteps (mv : Rat) : Rat := mv * 512 / 1000

/-- A code rounded toward the asserted side (R266). -/
def codeUp (x : Rat) : Int := -ratFloor (-x)
def codeDown (x : Rat) : Int := ratFloor x

/-- The voltage at a trip cell's input for a current in mA (R109): µΩ, gain. -/
def tripMv (ma : Rat) (shunt gain : Nat) : Rat := ma * (shunt : Rat) / 1000000 * (gainOf gain : Rat)

/-- Imbalance threshold of a member in mA (R184). -/
def imbalanceMa (ilim pct m : Nat) : Nat := if m = 0 then 0 else ilim * pct / (100 * m)

/-- A cell's code from the values that set it, none for a cell the values of a unit do not set (R265, R266). -/
def codeFor (s : State) (c : Nat) : Option Int :=
  if c < 64 then
    let e := (leafOf s c).env
    if slotOf s c = c then some (codeDown (dacSteps (tripMv (soft s c fScTh : Rat) e.shunt e.protGain)))
    else some (codeDown (dacSteps (tripMv (imbalanceMa (soft s c fIlim) (soft s c fImbCell) (liveOf s c).length : Rat) e.shunt e.protGain)))
  else if c < 128 then
    let v := soft s (c - 64) fPgUv
    some (codeUp (dacSteps ((if v = 0 then (leafOf s (slotOf s (c - 64))).ramp.vdDone * 9 / 10 else (v : Rat)) / 40)))
  else if c < 192 then some (codeDown (dacSteps ((soft s (c - 128) fPgOv : Rat) / 40)))
  else if c < 256 then some (codeUp (dacSteps ((soft s (c - 192) fVgsOk : Rat) / 8)))
  else if c < 260 then
    let e := (leafOf s (c - 192)).env
    some (codeDown (dacSteps (tripMv (soft s (c - 192) fScTh : Rat) e.shunt e.protGain)))
  else if c < 264 then
    let e := (leafOf s (c - 196)).env
    some (codeDown (dacSteps (tripMv (-(softI s (c - 196) fIrev) : Int) e.shunt e.protGain)))
  else if c < 268 then some (codeUp (dacSteps (((feedParams s (c - 200)).vinUv : Rat) / 40)))
  else if c < 272 then some (codeDown (dacSteps (((feedParams s (c - 204)).vinOv : Rat) / 40)))
  else if c < 276 then some (codeUp (dacSteps (((feedParams s (c - 208)).voutUv : Rat) / 40)))
  else if c = 340 then some (codeUp (dacSteps (3600 / 40)))
  else if c = 341 then some (codeUp (dacSteps ((s.nvm.vWarn : Rat) / 40)))
  else if c = 342 then some (codeUp (dacSteps (3000 / 2)))
  else if c = 343 then some (codeUp (dacSteps 810))
  else none

/-! ## Cells as they stand -/

/-- A cell powered from off, at INIT (R277); a privileged cell has no latch (R276), and a supply cell its threshold from the start (R265). -/
def initCell (s : State) (c : Nat) : Cell :=
  { level := initLevel s c, latch := initLevel s c && !privileged c,
    code := if 340 ≤ c then (clampI 0 1023 ((codeFor s c).getD 0)).toNat else 0 }

/-- A cell that nothing has reached: at INIT (R277), or off (R269); what the Press has read of it is the reference for its changes (R275, R278). -/
def freshCell (s : State) (c : Nat) : Cell :=
  let x := if wmOff s c then {} else initCell s c
  if s.cmp.read then { x with reported := some (x.latch || x.level) } else x

/-- A comparator cell. -/
def cellOf (s : State) (c : Nat) : Cell :=
  match Tbl.find s.cmp.cells c with
  | some x => x
  | none => freshCell s c

/-- A comparator cell written. -/
def setCell (s : State) (c : Nat) (x : Cell) : State := s.onCmp fun m => { m with cells := Tbl.put m.cells c x }

/-- A comparator cell's registers changed. -/
def onCell (s : State) (c : Nat) (f : Cell → Cell) : State := setCell s c (f (cellOf s c))

/-- What a cell reports: its latch OR its level (R273); an assertion that waits for the end of a blanking is none yet (R272). -/
def cellOut (x : Cell) : Bool := x.latch || (x.level && !x.blanked)

/-- The output of a cell as read at the last tick boundary; INIT before the first (R275, R278), released for a cell that is off (R269). -/
def cellRead (s : State) (c : Nat) : Bool := match (cellOf s c).reported with | some b => b | none => initLevel s c && !wmOff s c

/-- The edge register of a privileged cell, or of XTRIP_L for any other number: STATUS_EDGE0 to 3 feeds, 4 to 7 supply, 8 XTRIP_L (R489). -/
def edgeIndex (c : Nat) : Nat := if 260 ≤ c ∧ c < 264 then c - 260 else if 340 ≤ c ∧ c < 344 then c - 336 else 8

/-- A transition of a privileged cell or of XTRIP_L recorded in its edge register (R276). -/
def recordEdge (s : State) (k : Nat) (level : Bool) : State :=
  s.onCmp fun m =>
    let e := Tbl.get {} m.edges k
    { m with edges := Tbl.put m.edges k { rise := e.rise || level, fall := e.fall || !level, count := satN 255 (e.count + 1) } }

/-- Rind clears the edge flags and the counter it has read (R276). -/
def clearEdge (s : State) (k : Nat) : State :=
  s.onCmp fun m =>
    let e := Tbl.get {} m.edges k
    { m with edges := Tbl.put m.edges k { e with rise := false, fall := false, count := 0 } }

/-- The output of a supply cell as its input moves (R276): a transition is recorded, and nothing where it stands so already. -/
def supplyEdge (s : State) (c : Nat) (level : Bool) : State :=
  if (cellOf s c).level = level then s
  else recordEdge (setCell s c { cellOf s c with level := level, latch := false }) (edgeIndex c) level

/-- A new code written to a cell: cells other than trip, feed short and reverse cells hold their output for 5 µs (R268). -/
def writeCode (s : State) (c : Nat) (code : Nat) : State :=
  if (Tbl.find s.cmp.cells c).isSome ∧ (cellOf s c).code = code then s
  else onCell s c fun x =>
    { x with code := code, holdUntil := if c < 64 ∨ (256 ≤ c ∧ c < 264) then x.holdUntil else s.time.gtc + 2000 }

/-- A cell's code recomputed from the values that set it (R268). A profile or a write that would need a code outside the DAC's range has been refused (R266);
a code that still falls outside, as of a threshold that follows VDn, is the nearest there is (DESIGN CHOICE, log entry 110). -/
def refreshCode (s : State) (c : Nat) : State :=
  match codeFor s c with
  | some v => writeCode s c (clampI 0 1023 v).toNat
  | none => s

/-- The cells of a leaf whose thresholds the Press sets (R265). -/
def cellsOf (u : Nat) : List Nat :=
  if u < 64 then [u, 64 + u, 128 + u, 192 + u] else if u < 68 then [192 + u, 196 + u, 200 + u, 204 + u, 208 + u] else []

/-- The codes of every cell of a leaf, and of its hoop's other members, recomputed (R109, R184). -/
def refreshCodes (s : State) (u : Nat) : State := ((groupOf s u).flatMap cellsOf).foldl refreshCode s

/-- The codes that a unit's values give all lie in the DAC's range (R266). -/
def codesInRange (s : State) (u : Nat) : Bool :=
  ((groupOf s u).flatMap cellsOf).all fun c =>
    match codeFor s c with | some v => decide (0 ≤ v ∧ v ≤ 1023) | none => true

/-! ## Window monitors (R279, R280) -/

/-- mV at the source for 1 mV at the cell input (R279), none for a reserved source. -/
def wmScale (src : Nat) : Option Nat :=
  if src ≤ 15 then some 1 else if src = 16 ∨ src = 17 then some 40 else if src = 18 then some 2 else if src = 19 then some 1
  else if src = 20 ∨ src = 21 then some 2 else if src ≤ 25 then some 40 else none

/-- The largest threshold at a source, mV (R279). -/
def wmMax (src : Nat) : Nat :=
  match wmScale src with | some 1 => 1998 | some 2 => 3996 | some _ => 79922 | none => 0

/-- A window monitor record parsed from its 16 bytes (R280): monitor number, record, WM_CLEAR. -/
def parseWm (bs : List Byte) (i : Nat) : Nat × WmRec × Bool :=
  let md := byteAt bs (i + 2)
  let fl := byteAt bs (i + 3)
  (byteAt bs i,
   { src := byteAt bs (i + 1), mode := md % 4, hyst := md / 4 % 8, initLo := bit fl 0, initHi := bit fl 1, autoClr := bit fl 2, wake := bit fl 3,
     eventEn := bit fl 4, lower := leAt bs (i + 4) 4, upper := leAt bs (i + 8) 4 },
   bit fl 5)

/-- The 16 bytes of a window monitor record (R280); WM_CLEAR is not stored. -/
def encodeWm (k : Nat) (w : WmRec) : List Byte :=
  [BitVec.ofNat 8 k, BitVec.ofNat 8 w.src, BitVec.ofNat 8 (w.mode % 4 + w.hyst % 8 * 4),
   BitVec.ofNat 8 (ofB w.initLo + 2 * ofB w.initHi + 4 * ofB w.autoClr + 8 * ofB w.wake + 16 * ofB w.eventEn)]
    ++ toLe w.lower 4 ++ toLe w.upper 4 ++ [0, 0, 0, 0]

/-- The code of a monitor's threshold in mV at its source (R266). -/
def wmCode (scale mv : Nat) (up : Bool) : Int := (if up then codeDown else codeUp) (dacSteps ((mv : Rat) / (scale : Rat)))

/-- A record is acceptable: monitor 0 to 31, source and hysteresis not reserved, thresholds in the source's range, with codes in the DAC's (R266, R280). -/
def wmOk (k : Nat) (w : WmRec) : Bool :=
  decide (k < 32) && (wmScale w.src).isSome && decide (w.hyst ≤ 6) && decide (w.lower ≤ wmMax w.src) && decide (w.upper ≤ wmMax w.src)
    && decide (wmCode ((wmScale w.src).getD 1) w.lower false ≤ 1023) && decide (wmCode ((wmScale w.src).getD 1) w.upper true ≤ 1023)

/-- One cell of a monitor under its new record: a cell enabled from off starts at INIT, a disabled one is off, WM_CLEAR clears the latch (R277, R280). A DAC
failure found stays in its status until a later check passes (R283). -/
def wmCell (s : State) (c : Nat) (was : Bool) (mv scale : Nat) (up clear : Bool) : State :=
  let bad := (cellOf s c).dacFail
  if mv = 0 then setCell s c { dacFail := bad }
  else
    let code := (wmCode scale mv up).toNat
    let s := if was then s else
      setCell s c { initCell s c with holdUntil := s.time.gtc + 2000, dacFail := bad }
    let s := writeCode s c code
    if clear then onCell s c fun x => { x with latch := x.level } else s

/-- An accepted window monitor record takes effect (R280). -/
def applyWm (s : State) (k : Nat) (w : WmRec) (clear : Bool) : State :=
  let lo := wmEnabled s (276 + 2 * k)
  let hi := wmEnabled s (277 + 2 * k)
  let s := s.onCmp fun m => { m with wms := Tbl.put m.wms k w }
  let sc := (wmScale w.src).getD 1
  wmCell (wmCell s (276 + 2 * k) lo w.lower sc false clear) (277 + 2 * k) hi w.upper sc true clear

/-! ## The report at a tick boundary (R273 to R275, R278) -/

/-- The event source of a cell (R275). -/
def cellSource (c : Nat) : Nat :=
  if c < 64 then c else if c < 128 then c - 64 else if c < 192 then c - 128 else if c < 256 then c - 192
  else if c < 276 then 64 + (c - 256) % 4 else if c < 340 then 80 + (c - 276) / 2 else 72

/-- A trip cell that a parallel hoop has reassigned to imbalance watching (R46, R184). -/
def reassigned (s : State) (c : Nat) : Bool := c < 64 && slotOf s c != c && (leafOf s c).st != .retired

/-- Cells that raise CMP_CHANGE (R275): all but trip, feed short-circuit and privileged cells; window monitors when enabled with WM_EVENT_EN. -/
def reportsChange (s : State) (c : Nat) : Bool :=
  if c < 64 then false
  else if 256 ≤ c ∧ c < 264 then false
  else if 340 ≤ c then false
  else if 276 ≤ c then wmEnabled s c && (wmOf s ((c - 276) / 2)).eventEn
  else true

/-- The latch is cleared by the Press as it reads it (R273, R274); a window monitor's by WM_AUTO_CLR. -/
def clearsAtBoundary (s : State) (c : Nat) : Bool :=
  if c < 64 then reassigned s c
  else if 256 ≤ c ∧ c < 264 then false
  else if 276 ≤ c ∧ c < 340 then (wmOf s ((c - 276) / 2)).autoClr
  else true

/-- A cell whose output stands for 5 µs after a new code: all but trip, feed short and reverse cells (R268, R278). -/
def heldNow (s : State) (c : Nat) : Bool := decide (s.time.gtc < (cellOf s c).holdUntil) && !decide (c < 64 ∨ (256 ≤ c ∧ c < 264))

/-- A cell's latch after the boundary's read: cleared where the Press or the record clears it, and set again while the input is asserted (R273, R274); a
trip cell latches only as it fires, a blanked cell not at all (R272), a privileged one never (R276). -/
def latchAfterRead (s : State) (c : Nat) (x : Cell) : Bool :=
  if privileged c then false
  else if x.blanked then x.latch && !clearsAtBoundary s c
  else if clearsAtBoundary s c then x.level
  else if c < 64 ∨ (256 ≤ c ∧ c < 260) then x.latch
  else x.latch || x.level

/-- One cell read at a tick boundary: its output reported, CMP_CHANGE or IMBALANCE_FAST raised, its latch cleared (R184, R273 to R275, R278). -/
def readCell (s : State) (c : Nat) : State :=
  let x := cellOf s c
  if heldNow s c then s
  else
    let out := cellOut x
    let s := match x.reported with
      | some b =>
        if b ≠ out then
          if reportsChange s c then
            raiseP s (cellSource c) evCmpChange (w32 c) (w32 (ofB out + 2 * ofB (x.latch && !x.level))) 0
          else if reassigned s c ∧ out ∧ (soft s c fReportEn).testBit 2 then
            raiseP s (eventUnit s c) evImbalanceFast (w32 c) (w32 c) 0
          else s
        else s
      | none => s
    setCell s c { x with reported := some out, latch := latchAfterRead s c x }

/-! ## Modes, hysteresis and the output for an input (R265, R266, R269, R270) -/

/-- The mode of a cell (R269). -/
inductive CellMode where
  | fast | bal | low | park | off
deriving DecidableEq, Repr

/-- WM_MODE (R280). -/
def wmMode (m : Nat) : CellMode := match m % 4 with | 0 => .fast | 1 => .bal | 2 => .low | _ => .park

/-- The mode of each cell by power state (R269). -/
def cellMode (s : State) (m : PowerMode) (c : Nat) : CellMode :=
  let kept (u : Nat) (x : CellMode) : CellMode := if (leafOf s (slotOf s u)).env.parkKeep then x else .off
  let w := wmOf s ((c - 276) / 2)
  if 340 ≤ c then .low
  else if 276 ≤ c then
    if !wmEnabled s c then .off
    else match m with
      | .park => if !w.wake then .off else if w.mode % 4 = 3 then .park else .low
      | _ => wmMode w.mode
  else match m with
    | .park =>
      if c < 64 then (if slotOf s c = c then kept c .low else .off)
      else if c < 192 then kept (c % 64) .park
      else if c < 256 then .off
      else if c < 264 then kept (64 + c % 4) .low
      else kept (64 + c % 4) .park
    | _ => if c < 64 then (if slotOf s c = c then .fast else .bal) else if 256 ≤ c ∧ c < 264 then .fast else .bal

/-- The hysteresis code of a cell (R270, R271). -/
def cellHyst (s : State) (c : Nat) : Nat :=
  if c < 64 then 4 else if c < 192 then soft s (c % 64) fHystOut else if c < 256 then 5 else if c < 260 then 4 else if c < 264 then 2
  else if c < 276 then 4 else if c < 340 then (wmOf s ((c - 276) / 2)).hyst else if c = 341 then 2 else 1

/-- The hysteresis a code selects, mV at the cell input (R270); code 7 is reserved, and no record holds it (R280). -/
def hystMv (code : Nat) : Nat := [0, 2, 5, 10, 20, 40, 80].getD code 0

/-- A cell is asserted when its input is above its threshold, or below it (R265); reverse cells count the reverse current as above. -/
def assertsAbove (c : Nat) : Bool :=
  decide (c < 64) || (128 ≤ c && c < 192) || (256 ≤ c && c < 264) || (268 ≤ c && c < 272) || (276 ≤ c && c < 340 && c % 2 == 1)

/-- The output of a cell whose input stands at `mv` at the cell input, from what it was (R266, R270, R278): asserted beyond the threshold, released beyond the
hysteresis, and as it was between. -/
def outputFor (s : State) (c : Nat) (was : Bool) (mv : Rat) : Bool :=
  let t : Rat := ((cellOf s c).code : Rat) * 1000 / 512
  let h : Rat := hystMv (cellHyst s c)
  if assertsAbove c then (if was then decide (t - h ≤ mv) else decide (t < mv))
  else (if was then decide (mv ≤ t + h) else decide (mv < t))

/-- The output of a cell for what its inputs show, none where they show nothing: a reverse cell's is that of either comparison, whose V_FWD one asserts at or
below −10 mV and releases at +5 mV (R194, R265, R270). -/
def cellNext (s : State) (c : Nat) : Option Bool :=
  let x := cellOf s c
  if 260 ≤ c ∧ c < 264 then some (x.iRev || x.vRev) else x.input.map fun v => outputFor s c x.level ((v : Rat) / 1000)

/-! ## A change of a cell's input (R268, R272, R273) -/

/-- The input of a cell moves to a voltage (R265, R270). -/
def seeInput (s : State) (c : Nat) (uv : Int) : State :=
  onCell s c fun x => { x with input := some uv, iRev := if 260 ≤ c ∧ c < 264 then outputFor s c x.iRev ((uv : Rat) / 1000) else x.iRev }

/-- V_FWD of a feed moves, mV (R194, R270). -/
def seeFwd (s : State) (f : Nat) (v : Int) : State :=
  onCell s (260 + f) fun x => { x with vRev := if x.vRev then decide (v < 5) else decide (v ≤ -10) }

/-- A generic cell's output changes: its level, and with an assertion its latch (R273); not while the cell holds its output (R268, R278), nor of one that is
off (R269). -/
def genericChange (s : State) (c : Nat) (level : Bool) : State :=
  if wmOff s c || heldNow s c then s
  else onCell s c fun x => { x with level := level, latch := x.latch || level }

/-- The cells that have been reached read at a tick boundary (R103, R275). -/
def readCells (s : State) : State := ((s.cmp.cells.map (·.1)).foldl readCell s).onCmp fun m => { m with read := true }

end Sys2Proof.Machine
end

