-- ==== Sys2Proof/Machine/Press.lean ====
section
/-!
DEFINITION. Machine/Press.lean: the transitions of a leaf (R37): trips, locks, turn-offs, entry to ARM and RAMP, verdicts and their escalation, lock
records, feed loss and shedding.
-/

namespace Sys2Proof.Machine

/-! ## Gate actions (R75, R86, R88) -/

/-- The gate mode a turn-off leaves a driver in: FAST for a protective cause and for every CLAMP unit, SLEW otherwise, never from FAST to SLEW; a gate
that holds off already stays so; a regulator holds both gates low at once (R86, R88, R218). -/
def sinkMode (kind : Kind) (clamp fast : Bool) (g : GateMode) : GateMode :=
  if kind = .regulator then .holdOff
  else match g with
    | .holdOff => .holdOff
    | .sinkFast => .sinkFast
    | _ => if clamp || fast then .sinkFast else .sinkSlew

/-- A ramp that ends before its completion publishes nothing; whether its fit would have been discarded is judged at its last output sample (R84). -/
def rampCut (l : Leaf) : Bool := if l.st = .ramp then (fitResult l.ramp l.ramp.lastV l.ramp.vdStart).isNone else l.ramp.capInvalid

/-- A leaf turned off to state `st`: its gate sinks, a started ramp and its stall end, PWM stops, an open episode runs out (R75, R86, R118, R152). A protective
turn-off of a feed sinks FGRn with FGFn; under one by command FGRn waits for the end of FGFn's sink (R199). -/
def turnedOff (kind : Kind) (prot fast : Bool) (st : UState) (l : Leaf) : Leaf :=
  let bad := rampCut l
  let l := tailEpisode l
  let g := sinkMode kind l.env.clamp fast l.gate
  { l with st := st, sub := 0, gate := g, gateR := l.gateR && !prot && g != .holdOff, loop := 0,
           ramp := { l.ramp with stall := false, limiting := false, capInvalid := bad },
           pwm := { l.pwm with running := false, gateOn := false, offDue := false, cycleTrip := false, cycleLimit := false },
           diag := { l.diag with gateOpen := false } }

/-- SLEW is selected for turn-offs by command (R82, R86). -/
def slewSelected (s : State) (u : Nat) : Bool := soft s u fOffMode == 1

/-! ## Shedding (R136, R137, R203 to R205) -/

/-- The loss conditions and the HOLD release in force, by trigger number 0 to 4 (R67, R136). -/
def triggers (s : State) : List Nat :=
  ([0, 1, 2, 3].filter fun n => (leafOf s (64 + n)).lost) ++ (if s.press.holdTrigger then [4] else [])

/-- Mask `k` selects shed class `c`; bit 0 is ignored (R66, R136). -/
def selects (s : State) (k c : Nat) : Bool := c != 0 && (s.press.shedMasks.getD k 0).testBit c

/-- The lowest active trigger whose mask selects a class (R67, R136). -/
def shedTrigger (s : State) (c : Nat) : Option Nat := (triggers s).find? fun k => selects s k c

/-- The shed gates fire a mask: the OFF latch of every leaf of a selected class, with its FAST sink (R205). A shed whose trigger arises in PARK is applied
in the first tick after the wake (R142). -/
def shedFire (s : State) (k : Nat) : State :=
  if s.power.mode = .park then s else leafNums.foldl (fun s u =>
    if selects s k (leafOf s u).env.shedClass then
      onLeaf s u fun l => { l with offLatch := true, offShed := true, shedBy := if l.offShed then Nat.min l.shedBy k else k,
                                   gate := sinkMode (leafKind u) l.env.clamp true l.gate }
    else s) s

/-- The loss condition of a feed begins and its mask fires (R203, R205). -/
def loseFeed (s : State) (f : Nat) : State :=
  if (leafOf s f).lost then s
  else shedFire (onLeaf s f fun l => { l with lost := true, recoverUs := 0 }) (f - 64)

/-- The loss condition of a feed ends (R204). -/
def recoverFeed (s : State) (f : Nat) : State := onLeaf s f fun l => { l with lost := false, recoverUs := 0 }

/-- A latch of a feed is set: a loss condition begins in RAMP, ON or LIMIT (R203). -/
def feedLatched (s : State) (f : Nat) : State := if (leafOf s f).st.conducting then loseFeed s f else s

/-! ## Lock records (R180, R181) -/

/-- SEQ of the next lock record: one above the highest in either half (R181). -/
def lockSeq (n : Nvm) : Nat := (n.locks ++ n.locksOld).foldl (fun m r => if m < r.seq then r.seq else m) 0 + 1

/-- The latest lock record of a unit; one whose CRC fails is ignored (R181). -/
def latestLock (n : Nvm) (u : Nat) : Option LockRec :=
  ((n.locks ++ n.locksOld).filter fun r => r.unit == u && r.valid).foldl (fun m r =>
    match m with
    | none => some r
    | some o => if o.seq < r.seq then some r else m) none

/-- A lock record appended to the active half; a full half first has its standing records copied to the other and is erased (R181). -/
def appendLock (n : Nvm) (r : LockRec) : Nvm :=
  if n.locks.length < 128 then { n with locks := n.locks ++ [r] }
  else
    let keep := leafNums.filterMap fun u =>
      match latestLock n u with
      | some x => if x.kind = .cleared then none else some x
      | none => none
    { n with locks := keep ++ [r], locksOld := [] }

/-- Rind can write NVM-B for the Press: it runs (R180). -/
def rindWrites (s : State) : Bool := s.fw.rind == .running

/-- Rind writes a lock record of a unit, and sets RECORDED where it holds a verdict (R180, R181). A write of NVM-B that fails, which the manual allows and
gives no cause for, leaves a record with a bad CRC and RECORDED clear: a free value per write (log entry 84). -/
def writeLock (s : State) (u : Nat) (k : LockKind) (verdict esc : Nat) : State :=
  if rindWrites s then
    let ok := !Config.lockWriteFails (lockSeq s.nvm)
    onLeaf (s.onNvm fun n =>
        appendLock n { unit := u, kind := k, verdict := verdict, esc := esc, seq := lockSeq n, opsec := s.power.opsec, valid := ok })
      u fun l => { l with diag := { l.diag with recorded := ok && verdict != 0 } }
  else onLeaf s u fun l => { l with diag := { l.diag with recorded := false } }

/-- An event that Rind must record first is raised; while Rind is in a domain reset it waits for Rind's return (R132, R180). -/
def raiseRecorded (s : State) (source code : Nat) (p0 p1 p2 : Word32) : State :=
  if s.fw.rind = .domainReset then
    s.onPress fun p => { p with unrecordedEvents := p.unrecordedEvents ++ [{ source := source, code := code, p0 := p0, p1 := p1, p2 := p2, byRule := p.byRule }] }
  else raiseP s source code p0 p1 p2

/-! ## Turn-offs, trips and locks -/

/-- HOLD leaves ON or LIMIT: its release ends and its charger stops (R209, R213). -/
def holdOffEnds (s : State) (u : Nat) : State :=
  if u = 70 then s.onPress fun p => { p with holdTrigger := false, hold := { p.hold with iRef := 0 } } else s

/-- The events a feed's turn-off brings: a protective one begins its loss condition (R203). -/
def feedProtective (s : State) (u : Nat) : State := if leafKind u = .feed then feedLatched s u else s

/-- LIMIT_EXIT where a unit is about to leave LIMIT for another state than ON (R122). -/
def leaveLimit (s : State) (u : Nat) : State :=
  if (vleaf s u).st = .limit then raiseP s (eventUnit s u) evLimitExit (w32 (vleaf s u).limitLoop) 0 0 else s

/-- A leaf in ARM to LIMIT goes to OFF, by a protective turn-off or by command; a start attempt ends with the status given (R37, R86, R138). -/
def toOff (s : State) (u : Nat) (prot fast : Bool) (ended : Nat) : State :=
  if (vleaf s u).st.active then
    onV (holdOffEnds (leaveLimit s u) u) u fun l => { turnedOff (leafKind u) prot fast .off l with ended := ended }
  else s

/-- Retry delay in ms after `k` earlier retries (R128). -/
def retryDelay (base k : Nat) : Nat := base * 2 ^ (if 8 < k then 8 else k)

/-- The lowest cause of a mask of causes (R120). -/
def lowestCause (mask : Nat) : Nat := ((List.range 8).find? fun k => mask.testBit k).elim 0 (· + 1)

/-- A trip with the causes given (R119, R120, R121, R127, R128, R152): to COOL with a retry spent, or to an OVERCURRENT lock. -/
def trip (s : State) (u mask : Nat) : State :=
  let v := vleaf s u
  let i := unitMa s u
  let e := v.led.eEvLast
  let src := eventUnit s u
  let cause := lowestCause mask
  let s := leaveLimit s u
  let s := raiseP s src evTrip (w32 (cause + mask % 256 * 256 + ofB v.ramp.stall * 65536)) (w32i (roundStep i)) (w32 (roundStep e).toNat)
  let s := feedProtective s u
  let s := holdOffEnds s u
  let k := v.retries
  let mark (l : Leaf) : Leaf :=
    { l with cause := cause, mask := mask % 256, stallAtTrip := v.ramp.stall, cleanT := 0, ended := stState, causes := 0,
             ftTrip := mask.testBit 2, tripLatch := l.tripLatch || leafKind u == .feed }
  if k < soft s u fRetryMax then
    let ms := retryDelay (soft s u fRetryBase) k
    onV s u fun l => { mark (turnedOff (leafKind u) true true .cool l) with retries := satN 15 (k + 1), retryUs := ms * 1000, retryMs := ms }
  else
    raiseP (onV s u fun l => mark (turnedOff (leafKind u) true true .lock l)) src evLock 0 (w32 cause) 0

/-- A DAMAGE lock (R37, R132, R179): FAST turn-off, and LOCK with kind 1. -/
def damageLock (s : State) (u verdict : Nat) : State :=
  let v := vleaf s u
  if v.st = .retired ∨ (v.st = .lock ∧ v.sub = 1) then s
  else
    let s := feedProtective (holdOffEnds (leaveLimit s u) u) u
    raiseRecorded (onV s u fun l => { turnedOff (leafKind u) true true .lock l with sub := 1, cleanT := 0, ended := stState, causes := 0 })
      (eventUnit s u) evLock 1 (w32 v.cause) (w32 verdict)

/-! ## Verdicts (R178 to R183) -/

/-- The lowest verdict of a set of pending ones, bit code − 1 (R178). -/
def lowestVerdict (p : Nat) : Nat := ((List.range 4).find? fun k => p.testBit k).elim 0 (· + 1)

/-- OTHER: the verdicts found with the one acted on (R187). -/
def otherVerdicts (p v : Nat) : Nat :=
  ofB (p.testBit 1 && v != 2) + 2 * ofB (p.testBit 2 && v != 3) + 4 * ofB (p.testBit 3 && v != 4)

/-- A damage verdict of a channel, to be acted on in the next step 1 (R179). -/
def setVerdict (s : State) (ch code : Nat) : State :=
  onLeaf s ch fun l => { l with diag := { l.diag with pending := l.diag.pending ||| 2 ^ (code - 1) } }

/-- The two feeds of a bank's net (R182). -/
def netFeeds (s : State) (ch : Nat) : List Nat :=
  if (match s.fw.profile with | some p => p.net48.getD (bankOf ch) false | none => false) then [66, 67] else [64, 65]

/-- A feed turned off FAST by an escalation (R182): its OFF latch, and its loss condition in RAMP, ON or LIMIT. -/
def escalateFeed (s : State) (f : Nat) : State :=
  feedLatched (onLeaf s f fun l => { l with offLatch := true, offFeed := true, autoMate := false,
                                            gate := sinkMode .feed false true l.gate, gateR := false }) f

/-- UNCONTROLLABLE set on a channel, and its escalation target acted on (R182). -/
def escalate (s : State) (ch : Nat) : State :=
  let esc := (leafOf s (slotOf s ch)).env.escalation
  let s := onLeaf s ch fun l => { l with diag := { l.diag with uncontrollable := true, esc := esc } }
  let s := if esc = 2 then
      (netFeeds s ch).foldl escalateFeed (s.onPress fun p => { p with feedHolds := p.feedHolds.filter (· != ch) ++ [ch] })
    else s
  raiseP s (eventUnit s ch) evUncontrollable (w32 ch) 1 (w32 esc)

/-- The feeds an escalation holds off (R182). -/
def heldFeeds (s : State) : List Nat := s.press.feedHolds.flatMap (netFeeds s)

/-- XTRIP_L is pulled by this device (R393). -/
def pullsXtrip (s : State) : Bool := leafNums.any fun u => (leafOf s u).diag.esc == 1

/-- The verdict of one channel written to its diagnostic word (R187). -/
def noteVerdict (s : State) (ch v : Nat) : State :=
  onLeaf s ch fun l => { l with diag := { l.diag with verdict := v, other := otherVerdicts l.diag.pending v, pending := 0 } }

/-- The pending verdict of a solo channel acted on (R179, R180, R182). -/
def actSolo (s : State) (ch : Nat) : State :=
  let l := leafOf s ch
  if l.diag.pending = 0 then s
  else
    let v := lowestVerdict l.diag.pending
    let s := noteVerdict s ch v
    let s := if v = 1 then escalate s ch else s
    let s := writeLock s ch (if l.st = .retired then .retiredDamaged else .damageLock) v (leafOf s ch).diag.esc
    damageLock s ch v

/-- The pending verdict of a member of a parallel hoop acted on (R179, R180, R182). -/
def actMember (s : State) (ch : Nat) : State :=
  let l := leafOf s ch
  if l.diag.pending = 0 then s
  else
    let v := lowestVerdict l.diag.pending
    let s := noteVerdict s ch v
    if v = 1 then
      let s := onLeaf (escalate s ch) ch fun l => { l with diag := { l.diag with damaged := true } }
      let s := (liveOf s ch).foldl (fun s m => writeLock s m .damageLock (leafOf s m).diag.verdict (leafOf s m).diag.esc) s
      let s := if l.st = .retired then writeLock s ch .retiredDamaged v (leafOf s ch).diag.esc else s
      damageLock s (slotOf s ch) v
    else
      let s := onLeaf s ch fun l => { l with diag := { l.diag with damaged := true } }
      let s := writeLock s ch (if l.st = .retired then .retiredDamaged else .memberDamaged) v 0
      raiseRecorded s (eventUnit s ch) evMemberDamage (w32 ch) (w32 v) 0

/-- Damage verdicts acted on in step 1 (R179). -/
def actVerdicts (s : State) (u : Nat) : State :=
  match parallelOf s u with
  | none => if leafKind u = .channel then actSolo s u else s
  | some (_, h) => h.members.foldl actMember s

/-- A non-retired member carries DAMAGED, so the hoop may not start (R179). -/
def damagedMember (s : State) (u : Nat) : Bool := (parallelOf s u).isSome && (liveOf s u).any fun m => (leafOf s m).diag.damaged

/-- The verdict of a channel is cleared: its escalation ends and Rind writes CLEARED (R41, R183). One whose condition has completed since, to be acted on in the
next step 1, is not the one that is cleared (R132, R179). -/
def clearVerdict (s : State) (ch : Nat) : State :=
  let d := (leafOf s ch).diag
  let s := writeLock s ch .cleared 0 0
  let s := onLeaf s ch fun l => { l with diag := { l.diag with verdict := 0, other := 0, uncontrollable := false, damaged := false, recorded := false,
                                                               esc := 0 } }
  let s := s.onPress fun p => { p with feedHolds := p.feedHolds.filter (· != ch) }
  if d.uncontrollable then raiseP s (eventUnit s ch) evUncontrollable (w32 ch) 0 (w32 d.esc) else s

/-! ## Urgent conversions (R250) -/

/-- A buffer that a recipe released in DOZE is enabled again (R241). -/
def enableRef (s : State) (b : Nat) : State :=
  if (mbank s b).released then onBank s b fun k => { k with released := false, rewake := true, refOn := true, refReady := false, refAt := s.time.gtc } else s

/-- A host's urgent request of a node queued at its bank, whose buffer it enables (R241): one that finds the queue of 16 full waits in Paste (R250). -/
def requestUrgent (s : State) (n : Nat) : State :=
  onBank (enableRef s (nodeBank n)) (nodeBank n) fun b =>
    if b.urgent.contains n || b.urgentPress.contains n || 16 ≤ b.urgentPress.length + b.urgent.length then b else { b with urgent := b.urgent ++ [n] }

/-- The Press's urgent request of a node: it comes before the host's, the last of which goes back to Paste where the queue is full; what the queue does not
hold waits in the Press (R250). -/
def pressUrgent (s : State) (n : Nat) : State :=
  onBank (enableRef s (nodeBank n)) (nodeBank n) fun b =>
    if b.urgentPress.contains n then b
    else { b with urgentPress := b.urgentPress ++ [n], urgent := (b.urgent.filter (· != n)).take (16 - (b.urgentPress.length + 1)) }

/-! ## Starts -/

/-- The cell that trips a leaf: its slot trip cell, or a feed's short-circuit cell (R265). -/
def tripCell (u : Nat) : Option Nat := if u < 64 then some u else if u < 68 then some (256 + (u - 64)) else none

/-- The cell that trips a leaf has its input asserted still, so that a clear is followed by a fresh latch (R273). -/
def tripStands (s : State) (u : Nat) : Bool := match tripCell (slotOf s u) with | some c => (cellOf s c).level && !(cellOf s c).blanked | none => false

/-- Entry to ARM (R37, R91, R112, R121, R129, R134, R157): the latches clear, but for that of a trip cell still asserted, which latches afresh (R273); a command
clears TRIP_CAUSE alone, the fault timer resets, urgent conversions are requested. -/
def armLeaf (s : State) (u : Nat) (byRetry : Bool) : State :=
  let stands := tripStands s u
  let s := (groupOf s u).foldl (fun s m => enableRef s (nodeBank (iNode m))) s
  let s := (groupOf s u).foldl (fun s m => onLeaf s m fun l =>
    { l with diag := { l.diag with backfeedAtArm := l.diag.backfeed, shortAtArm := l.diag.verdict == 1 },
             tripLatch := l.tripClock || stands, offLatch := false, offSeat := false, offShed := false, offFeed := false, offXtrip := false }) s
  let s := match tripCell (slotOf s u) with | some c => onCell s c fun x => { x with latch := x.level } | none => s
  let s := onV s u fun l =>
    { l with st := .arm, sub := 0, armUs := 0, armReady := some 0, faultT := 0, retryCancelled := false, coolShed := false, autoMate := false,
             ended := stState, cause := if byRetry then l.cause else 0, ramp := { l.ramp with capInvalid := false } }
  pressUrgent (pressUrgent s (if leafKind u = .hold then 192 + (holdParams s).bank else supplyNode u)) (vNode u)

/-- A start: to ARM, or to a DAMAGE lock where a non-retired member carries DAMAGED (R37, R179). -/
def enterArm (s : State) (u : Nat) (byRetry : Bool) : State :=
  if damagedMember s u then
    let s := (liveOf s u).foldl (fun s m => writeLock s m .damageLock (leafOf s m).diag.verdict (leafOf s m).diag.esc) s
    damageLock s (slotOf s u) (((liveOf s u).find? fun m => (leafOf s m).diag.damaged).elim 0 fun m => (leafOf s m).diag.verdict)
  else armLeaf s u byRetry

/-- The code of the reference DAC at a reference in mV (R79, R195, R217): the upper 10 bits of the accumulator over 40 V or 64 V, for a regulator 12 bits
over 6.4 V. -/
def refCode (s : State) (u : Nat) (mv : Rat) : Nat :=
  match leafKind u with
  | .regulator => satN 4095 (ratFloor (mv * 4096 / 6400)).toNat
  | .hold => 0
  | _ =>
    let net48 := if u < 64 then (match s.fw.profile with | some p => p.net48.getD (bankOf u) false | none => false) else decide (66 ≤ u)
    satN 1023 (ratFloor (mv * 1024 / (if net48 then 64000 else 40000))).toNat

/-- Entry to RAMP (R37, R79, R83, R89, R152, R172, R195, R208): the reference starts at the output, or at the supply when the output is there already. -/
def enterRamp (s : State) (u : Nat) : State :=
  let out := outMv s u
  let sup := supplyMv s u
  let v0 := if leafKind u = .hold then 0 else if sup - (soft s u fVDone : Rat) ≤ out then sup else out
  let s := (groupOf s u).foldl (fun s m => onLeaf s m fun l =>
    { l with diag := { l.diag with backfeed := false, leakUs := 0, leakI := [] }, ramp := { l.ramp with trackMax := 0, counting := true, examined := false } }) s
  let s := if leafKind u = .hold then s.onPress fun p => { p with hold := { p.hold with iRef := 0, endUs := 0, inputLow := false } } else s
  onV s u fun l =>
    openEpisode { l with st := .ramp, sub := 0, gate := if leafKind u = .hold then .holdOff else if l.tripLatch || l.offLatch then l.gate else .servo,
                         gateR := leafKind u == .feed && !l.tripLatch && !l.offLatch,
                         ramp := { setpoint := v0, dac := refCode s u v0, vdStart := sup, capEst := l.ramp.capEst, resEst := l.ramp.resEst,
                                   lastV := out, lastVAt := (nodeOf s (vNode u)).at_, lastIAt := (nodeOf s (iNode u)).at_, vdDone := l.ramp.vdDone,
                                   counting := true } }

end Sys2Proof.Machine
end

