-- ==== Sys2Proof/Machine/Drive.lean ====
section
/-!
DEFINITION. Machine/Drive.lean: what the drive stage, the feeds, HOLD and the regulators do without a clock or at an edge of their own: TRIP, pulse
generators, blanking, feed cells, seat pins, XTRIP_L, holdup release.
-/

namespace Sys2Proof.Machine

/-! ## Gate modes (R75, R91) -/

/-- A gate mode the Press or the generator asks for while the unit conducts: a driver whose TRIP or OFF latch is set, or that is in the off-time of a
period, keeps its own (R75, R91). -/
def askGate (l : Leaf) (g : GateMode) : GateMode := if l.tripLatch || l.offLatch || (l.pwm.running && !l.pwm.gateOn) then l.gate else g

/-! ## LIMIT (R100, R111, R122, R152) -/

/-- A unit in ON enters LIMIT (R111, R122); `loop` is 0 for the current loop, 1 for the power loop. -/
def enterLimit (s : State) (u loop : Nat) : State :=
  let src := eventUnit s u
  raiseP (onV s u fun l =>
    { openEpisode l with st := .limit, sub := if leafKind u = .channel then l.sub else 0, limitLoop := loop, limitNow := true, cleanT := 0,
                         gate := if leafKind u = .channel || leafKind u = .feed then askGate l .servo else l.gate })
    src evLimitEnter (w32 loop) 0 0

/-- A unit in LIMIT returns to ON (R111, R122). -/
def exitLimit (s : State) (u : Nat) : State :=
  let src := eventUnit s u
  let loop := (vleaf s u).limitLoop
  raiseP (onV s u fun l =>
    { closeEpisode l with st := .on,
                          sub := if leafKind u = .hold then (if s.press.holdTrigger then 2 else 0) else if leafKind u = .feed then ofB l.gateR else l.sub,
                          pwm := { l.pwm with cycleLimit := false },
                          gate := if leafKind u = .channel || leafKind u = .feed then askGate l .enhance else l.gate })
    src evLimitExit (w32 loop) 0 0

/-! ## TRIP (R90, R91, R100) -/

/-- A unit in substate PWM on whose generator a trip cell firing is a cycle trip: every duty but the one that holds the gate on (R100). -/
def switching (l : Leaf) : Bool := l.pwm.running && l.pwm.curDuty != 65535

/-- TRIP asserted on every driver of a slot: the TRIP latch and the FAST sink (R76, R90). -/
def assertTrip (s : State) (u : Nat) : State :=
  (groupOf s u).foldl (fun s m => onLeaf s m fun l => { l with tripLatch := true, gate := sinkMode (leafKind m) l.env.clamp true l.gate }) s

/-- A slot trip cell is blanked (R272). -/
def blanked (s : State) (ch : Nat) : Bool :=
  let l := vleaf s ch
  l.pwm.running && l.sub == 1 && decide (s.time.gtc < l.pwm.blankUntil)

/-- A cycle trip: TRIP ends the on-time, and the unit goes to LIMIT in the next step 1 (R100). -/
def cycleTripOp (ch : Nat) (s : State) : State :=
  if slotOf s ch = ch ∧ switching (vleaf s ch) ∧ (vleaf s ch).st.conducting ∧ ¬ blanked s ch then
    let s := onCell s ch fun x => { x with level := true, latch := true }
    let s := assertTrip s ch
    pwmEpisode (onLeaf s ch fun l => { l with pwm := { l.pwm with cycleTrip := true, gateOn := false, offDue := false } }) ch
  else s

/-- A slot's driver has held off for 1 ms with no episode open (R171): the drivers of a parallel hoop are its live members' (R76). -/
def heldOff (s : State) (ch : Nat) : Bool :=
  (vleaf s ch).gate == .holdOff && decide (1000 ≤ (leafOf s ((liveOf s ch).headD ch)).diag.holdOffUs) && !(leafOf s ch).led.evOpen

/-- A slot trip cell crosses its threshold (R46, R90, R100, R108, R171, R272): a reassigned cell only latches, a blanked one waits, one on a switching generator
is a cycle trip; any other asserts TRIP. One that latches while the driver has held off for 1 ms is noted. -/
def tripCellFireOp (ch : Nat) (s : State) : State :=
  if slotOf s ch ≠ ch then onCell s ch fun x => { x with level := true, latch := true }
  else if blanked s ch then onCell s ch fun x => { x with level := true, blanked := true }
  else
    let s := if heldOff s ch then onLeaf s ch fun l => { l with diag := { l.diag with trippedOff := true } } else s
    if switching (vleaf s ch) ∧ (vleaf s ch).st.conducting then cycleTripOp ch s
    else assertTrip (onCell s ch fun x => { x with level := true, latch := true }) ch

/-! ## Pulse generators (R92 to R99) -/

/-- N_on of a period (R92), a multiple of 8 in DOZE (R95). -/
def nOn (s : State) (p d : Nat) : Nat :=
  let n := if d = 65535 then p else p * d / 65536
  if s.power.mode = .doze then n / 8 * 8 else n

/-- The GTC at which an edge that falls at `t` is driven: in DOZE the first multiple of 8 at or after it (R95). -/
def edgeAt (s : State) (t : Nat) : Nat := if s.power.mode = .doze then (t + 7) / 8 * 8 else t

/-- The generators of a bank in AUTO with equal period, by slot channel (R96). -/
def autoGroup (s : State) (bank p : Nat) : List Nat :=
  (List.range 16).map (· + 16 * bank) |>.filter fun c =>
    let l := vleaf s c
    slotOf s c == c && (l.st == .on || l.st == .limit) && l.pwm.set && l.pwm.duty != 0 && l.pwm.duty != 65535 && l.pwm.period == p
      && soft s c fStagger == 0

/-- The position of an element in a list, counted from 0. -/
def position (l : List Nat) (x : Nat) : Nat := l.findIdx (· == x)

/-- The phase offset of a generator (R96). DESIGN CHOICE, log entry 78: an AUTO generator whose duty is 0 or 0xFFFF is in no group and has no offset by
R96; it takes 0 where its group is empty, else P, which starts its periods where offset 0 does. -/
def phaseOf (s : State) (ch : Nat) : Nat :=
  let l := leafOf s ch
  if soft s ch fStagger = 1 then l.pwm.period * soft s ch fPwmPhase / 65536
  else
    let g := autoGroup s (bankOf ch) l.pwm.period
    if g.isEmpty then 0 else position g ch * l.pwm.period / g.length

/-- The offsets of a bank's generators recomputed; each moves to its own at its next period start (R97). -/
def restagger (s : State) (bank : Nat) : State :=
  ((List.range 16).map (· + 16 * bank)).foldl (fun s c =>
    if (leafOf s c).pwm.set then onLeaf s c fun l => { l with pwm := { l.pwm with nextPhase := phaseOf s c } } else s) s

/-- The last period start at or before the present GTC (R95), none before the first. -/
def lastStart (gtc phase p : Nat) : Option Nat := if p = 0 ∨ gtc < phase then none else some (gtc - (gtc - phase) % p)

/-- A period of the generator may start now: one is due by R95 since the last, and after it R97's lengthened off-time. -/
def periodDue (s : State) (l : Leaf) : Option Nat :=
  match lastStart s.time.gtc l.pwm.nextPhase (if l.pwm.set then l.pwm.period else l.pwm.curPeriod) with
  | some t => if (if l.pwm.running then l.pwm.startAt + l.pwm.curPeriod else l.pwm.startAt) ≤ t then some t else none
  | none => none

/-- The energy of a period's two edges in the MOSFET of a slot's member, J: I_on is the member's own (R147, R149). -/
def edgeEnergy (s : State) (ch m : Nat) : Rat :=
  let l := leafOf s m
  let i := soft s ch fPwmEdgeI
  if i = 0 then 0 else supplyMv s ch / 1000 * (l.pwm.iOn / 1000) * (l.env.qsw : Rat) / 1000000000 / ((i : Rat) / 1000000)

/-- A stage after an edge (R149). -/
def edgeStage (th : Int) (e : Rat) (rth tau : Nat) : Int :=
  if tau = 0 then th else th + stepsOf (e * ((rth : Rat) / 1000) / ((tau : Rat) / 1000000))

/-- The edge energy added to the FET models of a slot's members (R149). -/
def addEdge (s : State) (ch : Nat) : State :=
  (liveOf s ch).foldl (fun s m =>
    let e := edgeEnergy s ch m
    onLeaf s m fun l =>
      let g := l.led
      { l with led := { g with th1 := edgeStage g.th1 e l.env.rth1 l.env.tau1, th2 := edgeStage g.th2 e l.env.rth2 l.env.tau2,
                               th3 := edgeStage g.th3 e l.env.rth3 l.env.tau3 },
               tel := { l.tel with edges := windowAdd s.time.gtc e l.tel.edges } }) s

/-- The gates of a slot driven at an edge of its generator (R75, R76, R88, R91, R94): at a turn-on edge the driver charges the gate in SERVO until it is
enhanced; at a turn-off edge it sinks, every member in the mode of the slot's record. A latched driver stays, and a FAST sink stays FAST. -/
def driveEdge (s : State) (ch : Nat) (on_ : Bool) : State :=
  let clamp := (leafOf s ch).env.clamp
  (liveOf s ch).foldl (fun s m => onLeaf s m fun l =>
    { l with gate := if l.tripLatch || l.offLatch then l.gate
                     else if on_ then (if l.gate = .enhance then .enhance else .servo)
                     else sinkMode .channel clamp false l.gate }) s

/-- A turn-on edge has ended: Q_g / DRV_PWM_EDGE_I after its start the gate is enhanced, unless a limit loop has it (R75, R94). DESIGN CHOICE, log entry 79:
R94 says how long an edge lasts about. -/
def edgeDone (s : State) (u : Nat) : State :=
  let l := vleaf s u
  let i := soft s u fPwmEdgeI
  if leafKind u = .channel ∧ l.pwm.running ∧ l.pwm.gateOn ∧ l.gate = .servo ∧ l.loop = 0
      ∧ edgeAt s l.pwm.startAt * i + l.env.qg * 400000 ≤ s.time.gtc * i then
    onV s u fun l => { l with gate := askGate l .enhance }
  else s

/-- V_CL of a channel at the drain voltage measured, mV (R87). -/
def clampLevel (s : State) (ch : Nat) : Rat :=
  let vd := mv s (supplyNode ch)
  ratMin (ratMax ((leafOf s ch).env.vClamp : Rat) (vd + 1000)) (vd + 30000)

/-- The active clamp of a CLAMP channel that is not RETIRED acts while V_DS exceeds V_CL (R86, R87). -/
def clampStep (s : State) (ch : Nat) : State :=
  let acts := decide (clampLevel s ch < vdsMv s ch (leafMa s ch))
  onLeaf s ch fun l => { l with clamping := l.env.clamp && l.st != .retired && acts }

/-- The end of the blanking after an edge (R272): CMP_BLANK × 100 ns, rounded up to 20 ns in DOZE. -/
def blankEnd (s : State) (ch : Nat) : Nat :=
  let n := soft s ch fBlank * 40
  s.time.gtc + (if s.power.mode = .doze then (n + 7) / 8 * 8 else n)

/-- The cycle trip of the period that ends is cleared (R91, R100): the TRIP latches of the slot and its cell; LIMIT ends after a period without one. -/
def endCycle (s : State) (ch : Nat) : State :=
  let l := vleaf s ch
  if l.pwm.cycleTrip then
    let s := (groupOf s ch).foldl (fun s m => onLeaf s m fun l => { l with tripLatch := l.tripClock }) s
    let s := onCell s ch fun x => { x with latch := false }
    onLeaf s ch fun l => { l with pwm := { l.pwm with cycleTrip := false } }
  else
    let s := onLeaf s ch fun l => { l with pwm := { l.pwm with cycleLimit := false } }
    if l.pwm.cycleLimit ∧ l.st = .limit ∧ l.loop = 0 then exitLimit s ch else s

/-- A trip cell whose latch a period start has cleared while its input is still asserted latches afresh (R273). -/
def refire (s : State) (ch : Nat) : State :=
  let x := cellOf s ch
  if x.level && !x.latch && !x.blanked then tripCellFireOp ch s else s

/-- A period starts at `t` (R93, R94, R98): the stored setting takes effect, and the on-time is held off or on where R93 says so. A gate that a held-off period
turns off opens the episode of a CLAMP turn-off (R152). R93 gives the count of skipped edges no width: it stops at 4,294,967,295 (DESIGN CHOICE, log entry
111). -/
def startPeriod (s : State) (ch t : Nat) : State :=
  let s := endCycle s ch
  let p := (leafOf s ch).pwm
  if !p.set then
    let s := onV s ch fun l =>
      { l with sub := 0, gate := if l.tripLatch || l.offLatch then l.gate else if l.st = .limit && l.loop != 0 then .servo else .enhance,
               pwm := { l.pwm with running := false, gateOn := false, offDue := false, cycleLimit := false, startAt := t } }
    refire (restagger s (bankOf ch)) ch
  else
    let n := nOn s p.period p.duty
    let minOn := soft s ch fPwmMinOn * 40
    let whole := p.duty = 0 ∨ p.duty = 65535
    let off := p.duty = 0 ∨ (¬ whole ∧ n < minOn)
    let on_ := p.duty = 65535 ∨ (¬ whole ∧ ¬ n < minOn ∧ p.period - n < minOn)
    let skip := ¬ whole ∧ (n < minOn ∨ p.period - n < minOn)
    let s := if off ∨ on_ then s else addEdge s ch
    let s := if off then pwmEpisode s ch else s
    let s := onV s ch fun l =>
      { l with sub := 1,
               pwm := { l.pwm with running := true, curPeriod := p.period, curDuty := p.duty, phase := p.nextPhase, startAt := t,
                                   gateOn := decide (¬ off), offDue := decide (¬ off ∧ ¬ on_), skipped := if skip then satN 4294967295 (p.skipped + 1) else p.skipped,
                                   blankUntil := if off ∨ on_ then 0 else blankEnd s ch } }
    refire (driveEdge s ch (decide (¬ off))) ch

/-- A pulse generator's period starts (R95). -/
def pwmPeriodStartOp (ch : Nat) (s : State) : State :=
  let l := vleaf s ch
  if slotOf s ch = ch ∧ (l.st = .on ∨ l.st = .limit) ∧ (l.pwm.set ∨ l.pwm.running) then
    match periodDue s l with
    | some t =>
      let s := (List.range 8).foldl (fun s id =>
        match Tbl.find s.meas.seqs id with
        | some q => if q.trigKind = 2 ∧ evalUnit s (q.trigArg % 256) = ch then seqTrigger s id (edgeAt s t) else s
        | none => s) s
      startPeriod s ch t
    | none => s
  else s

/-- The turn-off edge of a period (R94): N_on after its start. -/
def pwmOffEdgeOp (ch : Nat) (s : State) : State :=
  let l := vleaf s ch
  if slotOf s ch = ch ∧ switching l ∧ l.pwm.gateOn ∧ l.pwm.offDue
      ∧ edgeAt s l.pwm.startAt + nOn s l.pwm.curPeriod l.pwm.curDuty ≤ s.time.gtc + tickGtc s then
    let s := onLeaf s ch fun l => { l with pwm := { l.pwm with gateOn := false, offDue := false, blankUntil := blankEnd s ch } }
    pwmEpisode (driveEdge s ch false) ch
  else s

/-- The blanking of a slot's cells ends: a trip cell still asserted acts, an output cell of the unit still asserted latches (R272). -/
def cmpBlankEndOp (ch : Nat) (s : State) : State :=
  let l := leafOf s ch
  if l.pwm.blankUntil ≤ s.time.gtc + tickGtc s then
    let s := onLeaf s ch fun l => { l with pwm := { l.pwm with blankUntil := 0 } }
    let s := ((groupOf s ch).flatMap fun m => [64 + m, 128 + m]).foldl (fun s c =>
      if (cellOf s c).blanked then onCell s c fun x => { x with blanked := false, latch := x.latch || x.level } else s) s
    if (cellOf s ch).blanked then
      let s := onCell s ch fun x => { x with blanked := false }
      if (cellOf s ch).level then tripCellFireOp ch s else s
    else s
  else s

/-- V_GS has fallen below 1 V: the sink ends in HOLD_OFF; a feed's FGRn then sinks FAST (R75, R199). -/
def gateSinkDoneOp (u : Nat) (s : State) : State :=
  match (leafOf s u).gate with
  | .sinkSlew | .sinkFast => onLeaf s u fun l => { l with gate := .holdOff, gateR := if leafKind u = .feed then false else l.gateR }
  | _ => s

/-! ## Feeds (R197 to R204) -/

/-- A feed's short-circuit cell fires: both gates sink FAST, with no clock, and the TRIP latch sets (R199, R203). -/
def feedShortOp (f : Nat) (s : State) : State :=
  let s := onCell s (192 + f) fun x => { x with level := true, latch := true }
  let s := onLeaf s f fun l => { l with tripLatch := true, gate := sinkMode .feed false true l.gate, gateR := false }
  feedLatched s f

/-- A feed's reverse cell fires (R197, R198, R276): FGRn sinks and RISE sets; the Press reports BLOCKING from the level at the next boundary. -/
def feedReverseOp (f : Nat) (s : State) : State :=
  let was := (cellOf s (196 + f)).level
  let s := setCell s (196 + f) { cellOf s (196 + f) with level := true, latch := false, iRev := (cellOf s (196 + f)).iRev || !was }
  let s := if was then s else recordEdge s (f - 64) true
  let s := onLeaf s f fun l => { l with gateR := false }
  if was then s else raiseCell s f evFeedReverse (w32i (roundStep (leafMa s f))) 0 0

/-- A feed's reverse cell releases: FALL sets and the counter counts (R276). -/
def feedReverseReleaseOp (f : Nat) (s : State) : State :=
  if (cellOf s (196 + f)).level then
    recordEdge (setCell s (196 + f) { cellOf s (196 + f) with level := false, latch := false, iRev := false, vRev := false }) (f - 64) false
  else s

/-- V_FWD exceeds FEED_V_ON with the reverse cell released: the loop raises FGRn with no clock (R197), which in RAMP conducts from the start (R195). -/
def feedConductOp (f : Nat) (s : State) : State :=
  let l := leafOf s f
  if l.st.conducting ∧ ¬ l.tripLatch ∧ ¬ l.offLatch ∧ ¬ (cellOf s (196 + f)).level then onLeaf s f fun l => { l with gateR := true } else s

/-- The substate of a feed in ON as the Press reports it from the levels at the boundary (R35, R197): CONDUCTING while FGRn is driven. -/
def feedSub (s : State) (f : Nat) : State :=
  if (leafOf s f).st = .on then onLeaf s f fun l => { l with sub := ofB l.gateR } else s

/-- The VIN undervoltage cell of a feed is asserted (R203). -/
def vinUv (s : State) (f : Nat) : Bool := (cellOf s (200 + f)).level

/-- A loss condition begins (R203): a latch set, or VIN undervoltage, in RAMP, ON or LIMIT. -/
def feedLossOp (f : Nat) (s : State) : State :=
  let l := leafOf s f
  if l.st.conducting ∧ (l.tripLatch ∨ l.offLatch ∨ vinUv s f) then loseFeed s f else s

/-- VIN overvoltage (R199): FEED_VIN_OV, and the OFF latch with OV_OFF; nothing while the cell holds its output (R268). -/
def feedVinOvOp (f : Nat) (s : State) : State :=
  if heldNow s (204 + f) then s
  else
  let s := onCell s (204 + f) fun x => { x with level := true, latch := true }
  let s := raiseCell s f evFeedVinOv (w32i (roundStep (mv s (supplyNode f)))) 0 0
  if (feedParams s f).ovOff then
    feedLatched (onLeaf s f fun l => { l with offLatch := true, offFeed := true, gate := sinkMode .feed false true l.gate, gateR := false }) f
  else s

/-- VIN of a feed is inside its window (R195, R200, R204). -/
def vinOk (s : State) (f : Nat) : Bool := !cellRead s (200 + f) && !cellRead s (204 + f)

/-- T_RECOVER in ON with VIN in window ends a loss condition (R204). -/
def tRecoverOp (f : Nat) (s : State) : State :=
  let l := leafOf s f
  if l.lost ∧ l.st = .on ∧ (feedParams s f).tRecover * 1000 ≤ l.recoverUs then recoverFeed s f else s

/-! ## Seating and cross-trip (R134, R135, R394) -/

/-- A seat or mate pin released for 2 µs (R134): the OFF latch of every mapped unit, and the time mated restarts. -/
def seatReleaseOp (pin : Nat) (s : State) : State :=
  let s := s.onPress fun p => { p with mated := Tbl.del p.mated pin }
  leafNums.foldl (fun s u =>
    if (seatsOf s u).contains pin then
      let s := onLeaf s u fun l => { l with offLatch := true, offSeat := true, gate := sinkMode (leafKind u) l.env.clamp true l.gate,
                                            gateR := false }
      if leafKind u = .feed then feedLatched s u else s
    else s) s

/-- The filtered XTRIP_L line changes level (R135, R276, R394); XTRIP_CHANGE follows the XTRIP_OFF of the next boundary. -/
def xtripChangeOp (low : Bool) (s : State) : State :=
  if s.press.xtripLow = low then s
  else
    let s := s.onPress fun p => { p with xtripLow := low }
    let s := raiseCell (recordEdge s 8 low) 76 evXtripChange (w32 (ofB low + 2 * ofB (pullsXtrip s))) 0 0
    if low then
      leafNums.foldl (fun s u =>
        if (leafOf s u).env.xtripOff then
          let s := onLeaf s u fun l => { l with offLatch := true, offXtrip := true, gate := sinkMode (leafKind u) l.env.clamp true l.gate,
                                                gateR := false }
          if leafKind u = .feed then feedLatched s u else s
        else s) s
    else s

/-! ## Holdup release (R211 to R213) -/

/-- The bus HOLD backs, mV (R207). -/
def holdBusMv (s : State) : Rat := mv s (192 + (holdParams s).senseBank)

/-- The bus falls below HOLD_V_RELEASE (R211): in ON, with the store above the bus, a release starts. -/
def holdReleaseOp (s : State) : State :=
  let l := leafOf s 70
  if l.st = .on ∧ l.sub ≠ 2 ∧ holdBusMv s < mv s 216 then
    let s := onLeaf s 70 fun l => { l with sub := 2, gate := .enhance }
    let s := s.onPress fun p => { p with holdTrigger := true, hold := { p.hold with eRel := 0, endUs := 0, iRef := 0 } }
    let s := raiseCell s 71 evHoldRelease (w32i (roundStep (mv s 216))) (w32i (roundStep (holdBusMv s))) 0
    shedFire s 4
  else s

/-- A release ends: E_rel at its cap sinks the switch FAST, a taken-over or spent release simply ends (R213). -/
def holdReleaseEndOp (s : State) : State :=
  if s.press.holdTrigger then
    let h := s.press.hold
    let cap := decide (((holdParams s).eReleaseMax : Rat) ≤ h.eRel)
    if cap ∨ 1000 ≤ h.endUs then
      let s := if cap then raiseP s 71 evHoldReleaseCap (w32i (roundStep h.eRel)) 0 0 else s
      let s := s.onPress fun p => { p with holdTrigger := false, hold := { p.hold with endUs := 0 } }
      let s := if (leafOf s 70).st = .limit then exitLimit s 70 else s
      onLeaf s 70 fun l => { l with sub := 0, gate := if cap then .sinkFast else .holdOff }
    else s
  else s

/-! ## Regulators (R218) -/

/-- A regulator's output above OV_PM holds HGn low (R218). -/
def regOvOp (r : Nat) (s : State) : State :=
  let s := onLeaf s r fun l => { l with ovHold := true }
  raiseCell s r evRegOv (w32i (roundStep (outMv s r))) 0 0

/-- The hold ends when the output falls below 1,050 per mille (R218). -/
def regOvStep (s : State) (r : Nat) : State :=
  if (leafOf s r).ovHold ∧ outMv s r * 1000 < (soft s r fVout : Rat) * 1050 then onLeaf s r fun l => { l with ovHold := false } else s

end Sys2Proof.Machine
end

