-- ==== Sys2Proof/Machine/Steps.lean ====
section
/-!
DEFINITION. Machine/Steps.lean: the six per-leaf steps of a protection tick (R105) and the events of a leaf's own timers, each as one operation that acts
when its condition has come and changes nothing before.
-/

namespace Sys2Proof.Machine

/-! ## Pumps (R73) -/

/-- A bank pump. -/
def pumpOf (s : State) (b : Nat) : Pump := Tbl.get {} s.press.pumps b

/-- A bank pump's registers changed. -/
def onPump (s : State) (b : Nat) (f : Pump → Pump) : State := s.onPress fun p => { p with pumps := Tbl.put p.pumps b (f (Tbl.get {} p.pumps b)) }

/-- The source of a bank's pump events: a bank has no unit number of its own, so its first channel's (R73, R122; DESIGN CHOICE, log entry 85). -/
def bankSource (b : Nat) : Nat := 16 * b

/-- CP_UV (R73): below VDn + 8.5 V for 10 µs. -/
def cpUvOp (b : Nat) (s : State) : State :=
  let p := pumpOf s b
  if !p.uv ∧ 10 ≤ p.lowUs then raiseP (onPump s b fun p => { p with uv := true }) (bankSource b) evCpUv (w32 b) 0 0 else s

/-- CP_FAIL (R73): below VDn + 6.0 V for 10 µs; step 1 then trips every conducting unit of the bank with cause PUMP, with the tick's other causes (R105,
R120). -/
def cpFailOp (b : Nat) (s : State) : State :=
  let p := pumpOf s b
  if !p.fail ∧ 10 ≤ p.failUs then raiseP (onPump s b fun p => { p with fail := true }) (bankSource b) evCpFail (w32 b) 0 0 else s

/-- CP_UV and CP_FAIL clear (R73): above VDn + 9.0 V for 100 µs. -/
def cpRecoverOp (b : Nat) (s : State) : State :=
  if 100 ≤ (pumpOf s b).okUs then onPump s b fun p => { p with uv := false, fail := false } else s

/-- A pump's times over a tick (R73). -/
def pumpTimes (s : State) (b : Nat) : State :=
  let us := tickUs s
  onPump s b fun p =>
    { p with lowUs := if p.margin < 8500 then p.lowUs + us else 0, failUs := if p.margin < 6000 then p.failUs + us else 0,
             okUs := if 9000 < p.margin then p.okUs + us else 0 }

/-- The pumps in a tick (R73). -/
def pumpStep (s : State) : State :=
  [0, 1, 2, 3].foldl (fun s b => cpRecoverOp b (cpFailOp b (cpUvOp b (pumpTimes s b)))) s

/-! ## Step 1: latches, verdicts, imbalance (R105, R171, R179, R185) -/

/-- A slot trip cell that latched while the driver had held off for 1 ms with no episode open is a DS_SHORT verdict on the member with the largest usable
current sample (R169, R171). -/
def latchVerdict (s : State) (u : Nat) : State :=
  if (leafOf s u).diag.trippedOff then
    let s := onLeaf s u fun l => { l with diag := { l.diag with trippedOff := false } }
    let m := (groupOf s u).foldl (fun m x =>
      match usableMa s m, usableMa s x with
      | some a, some b => if a < b then x else m
      | none, some _ => x
      | _, none => m) u
    if (leafOf s m).diag.verdict = 1 then s else setVerdict s m 1
  else s

/-! ### Imbalance (R169, R185) -/

/-- The buffer of the bank that owns a leaf's current node is off by a recipe (R241). -/
def bankReleased (s : State) (u : Nat) : Bool := (mbank s (nodeBank (iNode u))).released

/-- Mean of a list of currents. -/
def meanOf (l : List Rat) : Rat := if l.isEmpty then 0 else l.foldl (· + ·) 0 / (l.length : Rat)

/-- A time in µs as DIAG settings act on it (R168). -/
def checkTime (s : State) (ch : Nat) : Nat := wholeTicks s (soft s ch fTCheck)

/-- The comparison of R185 of a member with the mean of the non-retired members. -/
inductive Deviation where
  /-- The comparison does not run: no such member, not ON or LIMIT, or too small a mean. -/
  | off
  /-- A member's sample is not usable, so the comparison waits (R169). -/
  | wait
  /-- The deviation, %. -/
  | is (pct : Rat)

/-- The deviation of a member (R169, R185). -/
def deviation (s : State) (ch : Nat) : Deviation :=
  let live := liveOf s ch
  let st := (vleaf s ch).st
  if (parallelOf s ch).isNone ∨ ¬ live.contains ch ∨ ¬ (st = .on ∨ st = .limit) then .off
  else
    let is := live.filterMap (usableMa s)
    if is.length < live.length then .wait
    else
      let mean := meanOf is
      if mean ≤ 0 ∨ mean * 20 * (live.length : Rat) < ((leafOf s (slotOf s ch)).env.iRated : Rat) then .off
      else .is (ratAbs ((usableMa s ch).getD 0 - mean) * 100 / mean)

/-- IMBALANCE of a member (R185): once, and again only after the deviation has stayed within bounds for DIAG_T_CHECK. -/
def imbalanceOp (ch : Nat) (s : State) : State :=
  let d := (leafOf s ch).diag
  if d.imbRaised then
    (if checkTime s ch ≤ d.imbOkUs then onLeaf s ch fun l => { l with diag := { l.diag with imbRaised := false, imbMax := 0 } } else s)
  else if checkTime s ch ≤ d.imbUs ∧ 0 < d.imbUs then
    let s := onLeaf s ch fun l => { l with diag := { l.diag with imbRaised := true, imbPct := satN 255 d.imbMax } }
    if (soft s ch fReportEn).testBit 2 then raiseP s (eventUnit s ch) evImbalance (w32 ch) (w32 d.imbMax) 0 else s
  else s

/-- The times of the imbalance comparison over a tick (R185). -/
def imbalanceTimes (d : Diag) (dev : Deviation) (pct : Rat) (us : Nat) : Diag :=
  match dev with
  | .off => { d with imbUs := 0, imbOkUs := 0, imbMax := if d.imbRaised then d.imbMax else 0 }
  | .wait => d
  | .is x =>
    if pct < x then { d with imbUs := d.imbUs + us, imbOkUs := 0, imbMax := Nat.max d.imbMax (roundStep x).toNat }
    else { d with imbUs := 0, imbOkUs := d.imbOkUs + us, imbMax := if d.imbRaised then d.imbMax else 0 }

/-- The imbalance comparison of a parallel hoop's members in step 1 (R185). -/
def imbalanceStep (s : State) (u : Nat) : State :=
  if (parallelOf s u).isNone then s
  else ((groupOf s u).filter fun m => !bankReleased s m).foldl (fun s m =>
    let dev := deviation s m
    let pct : Rat := (soft s m fImbPct : Rat)
    let us := tickUs s
    imbalanceOp m (onLeaf s m fun l => { l with diag := imbalanceTimes l.diag dev pct us })) s

/-- What step 1 decides: damage verdicts, the cycle trip, and the SHORT and PUMP causes (R73, R100, R120, R171, R179). -/
def step1 (s : State) (u : Nat) : State :=
  let s := actVerdicts s u
  let s := latchVerdict s u
  let v := vleaf s u
  if v.st.conducting then
    let cyc := v.pwm.cycleTrip && v.sub == 1
    let short := (leafOf s u).tripLatch && !(leafOf s u).tripClock && !cyc
    let pump := leafKind u == .channel && (pumpOf s (bankOf u)).fail
    let s := onV s u fun l => { l with causes := ofB short + 2 * ofB pump, ftTrip := false }
    if cyc then onLeaf (if v.st = .on then enterLimit s u 0 else s) u fun l => { l with pwm := { l.pwm with cycleLimit := true } } else s
  else onV s u fun l => { l with causes := 0, ftTrip := false }

/-! ## Step 2: limits, the ramp and its stall, the fault timer (R105, R111 to R118) -/

/-- RAMP_STALL is recorded (R116). -/
def rampStallOp (u : Nat) (s : State) : State :=
  let v := vleaf s u
  if v.st = .ramp ∧ ¬ v.ramp.stall ∧ wholeTicks s (soft s u fTTrack) < v.ramp.lagUs then
    let s := (groupOf s u).foldl (fun s m => onLeaf s m fun l => { l with ramp := { l.ramp with examined := false } }) s
    raiseP (onV s u fun l => { l with ramp := { l.ramp with stall := true, stalledOnce := true, stallAt := s.time.gtc, clearUs := 0 } })
      (eventUnit s u) evRampStall (w32i (roundStep (v.ramp.setpoint - outMv s u))) 0 0
  else s

/-- RAMP_STALL clears (R118). -/
def rampStallClearOp (u : Nat) (s : State) : State :=
  let v := vleaf s u
  if v.st = .ramp ∧ v.ramp.stall ∧ wholeTicks s (soft s u fTTrack) ≤ v.ramp.clearUs then
    onV s u fun l => { l with ramp := { l.ramp with stall := false, lagUs := 0 } }
  else s

/-- The ramp reference after a tick (R79, R217): at DRV_RAMP_RATE toward the supply, and with it once there. -/
def nextSetpoint (sp sup : Rat) (rate us : Nat) : Rat :=
  if sup ≤ sp then sup else ratMin sup (sp + (rate : Rat) * (us : Rat) / 10)

/-- A current sample taken with the output's slope and value, into the fit sums (R83). -/
def fitSample (r : RampState) (sl v i : Rat) : RampState :=
  { r with sss := r.sss + sl * sl, svv := r.svv + v * v, ssv := r.ssv + sl * v, ssi := r.ssi + sl * i, svi := r.svi + v * i, fitN := r.fitN + 1 }

/-- The fit after a tick (R83, R84): each new current sample inside the window counts once, and enters the sums with the slope of the last two output samples of
the ramp, once there are two. -/
def fitTick (r : RampState) (v i : Rat) (at_ iAt : Nat) (valid limiting : Bool) : RampState :=
  let r := if at_ ≠ r.lastVAt then
      { r with slope := if r.lastVAt < at_ then some ((v - r.lastV) / (((at_ - r.lastVAt : Nat) : Rat) / 400)) else none, lastV := v, lastVAt := at_ }
    else r
  let inside := decide (r.vdStart / 5 ≤ v ∧ v ≤ r.vdStart * 4 / 5)
  let fresh := iAt != r.lastIAt
  let r := { r with lastIAt := iAt, fitBad := r.fitBad || (inside && (limiting || !valid)) }
  if inside && fresh then (match r.slope with | some sl => fitSample r sl v i | none => { r with fitN := r.fitN + 1 }) else r

/-- The deviations of a parallel hoop's members from their mean at an output sample of a ramp, of which each keeps its largest (R48). The mean is that of the
non-retired members (DESIGN CHOICE, log entry 112). -/
def memberTrack (s : State) (u : Nat) : State :=
  let live := liveOf s u
  if (parallelOf s u).isNone ∨ live.isEmpty then s
  else
    let mean := (live.map (outMv s)).foldl (· + ·) 0 / (live.length : Rat)
    live.foldl (fun s m =>
      let d := ratAbs (outMv s m - mean)
      onLeaf s m fun l => { l with ramp := { l.ramp with trackMax := ratMax d l.ramp.trackMax } }) s

/-- A unit in RAMP over a tick (R79, R80, R83, R116, R118, R208). -/
def rampTick (s : State) (u : Nat) : State :=
  let us := tickUs s
  if leafKind u = .hold then
    s.onPress fun p => { p with hold := { p.hold with iRef := ratMin (soft s u fIChg : Rat) (p.hold.iRef + (soft s u fIChg : Rat) * (us : Rat) / 1000) } }
  else
    let v := outMv s u
    let sup := supplyMv s u
    let i := unitMa s u
    let valid := (nodeOf s (vNode u)).quality == .valid && (liveOf s u).all fun m => (nodeOf s (iNode m)).quality == .valid
    let rate := soft s u fRampRate
    let vt : Rat := (soft s u fVTrack : Rat)
    let tracked := leafKind u == .channel || leafKind u == .feed
    let s := onV s u fun l =>
      let lim := l.loop != 0
      let r := fitTick { l.ramp with limiting := lim } v i (nodeOf s (vNode u)).at_ (nodeOf s (iNode u)).at_ valid lim
      let sp := nextSetpoint r.setpoint sup rate us
      let lag := sp - v
      { l with ramp := { r with setpoint := sp, dac := refCode s u sp, lagUs := if tracked && decide (vt < lag) then r.lagUs + us else 0,
                                clearUs := if decide (lag < vt / 2) then r.clearUs + us else 0 } }
    rampStallClearOp u (rampStallOp u (memberTrack s u))

/-- The reference of a regulator in ON or LIMIT, one tick nearer to REG_VOUT (R217): a write slews it at DRV_RAMP_RATE. -/
def regSlew (s : State) (u : Nat) : State :=
  let v := vleaf s u
  if leafKind u = .regulator ∧ (v.st = .on ∨ v.st = .limit) then
    let t := regTarget s u
    let d : Rat := (soft s u fRampRate : Rat) * (tickUs s : Rat) / 10
    let sp := if v.ramp.setpoint < t then ratMin t (v.ramp.setpoint + d) else ratMax t (v.ramp.setpoint - d)
    onV s u fun l => { l with ramp := { l.ramp with setpoint := sp, dac := refCode s u sp } }
  else s

/-- The fault timer over a tick, in eighths of a µs (R112, R114, R212, R218). -/
def faultTick (l : Leaf) (us : Nat) : Nat :=
  match l.st with
  | .limit => l.faultT + 8 * us
  | .ramp => if l.ramp.stall || l.ovHold then l.faultT + 8 * us else l.faultT - us
  | .on => if l.ovHold then l.faultT + 8 * us else l.faultT - us
  | _ => l.faultT

/-- The fault timer has reached PROT_FAULT_TIME (R113). -/
def faultDue (s : State) (u : Nat) : Bool :=
  let v := vleaf s u
  v.st.conducting && decide (soft s u fFaultTime ≠ 0) && decide (wholeTicks s (soft s u fFaultTime) * 8 ≤ v.faultT)

/-- Entry to and exit from LIMIT on the latched flag (R111); a loop that takes the gate of a unit already in LIMIT has it in SERVO (R75). -/
def limitTick (s : State) (u : Nat) : State :=
  let v := vleaf s u
  if v.st = .on ∧ v.loop ≠ 0 ∧ (leafKind u ≠ .hold ∨ v.sub = 2) then enterLimit s u (v.loop - 1)
  else if v.st = .limit ∧ v.loop = 0 ∧ ¬ v.pwm.cycleLimit then exitLimit s u
  else if v.st = .limit ∧ v.loop ≠ 0 ∧ (leafKind u = .channel ∨ leafKind u = .feed) then onV s u fun l => { l with gate := askGate l .servo }
  else s

/-- Step 2 (R105). -/
def step2 (s : State) (u : Nat) : State :=
  let s := limitTick s u
  let s := if (vleaf s u).st = .ramp then rampTick s u else s
  let s := edgeDone (regSlew s u) u
  let us := tickUs s
  let s := onV s u fun l => { l with faultT := faultTick l us }
  if faultDue s u then onV s u fun l => { l with causes := l.causes ||| 4 } else s

/-! ## Step 3: models and bounds (R105, R115, R144) -/

/-- The cause of the first bound reached in the order of R115, as a mask. -/
def boundCause (hit : Nat) : Nat :=
  if hit.testBit 0 then 8 else if hit.testBit 1 then 16 else if hit.testBit 2 then 32 else if hit.testBit 3 then 64 else 0

/-- LEDGER_OVER for each bound reached in a state that cannot trip (R144): once while it stands there, counted from the unit's last conducting tick, so a bound
that tripped the unit and still stands is raised after the trip too (DESIGN CHOICE, log entry 114). -/
def ledgerOver (s : State) (u hit : Nat) : State :=
  let seen := (leafOf s u).led.overSeen
  let s := [0, 1, 2, 3].foldl (fun s k => if hit.testBit k ∧ ¬ seen.testBit k then raiseP s (eventUnit s u) evLedgerOver (w32 (k + 1)) 0 0 else s) s
  onLeaf s u fun l => { l with led := { l.led with overSeen := hit } }

/-- LEDGER_OVER for each bound that a retired member's own quantities have reached, once while it stands (R143, R144). -/
def ownLedgerOver (s : State) (m : Nat) : State :=
  let hit := ownBoundsHit s m
  let seen := (leafOf s m).led.overOwn
  let s := [0, 1, 2, 3].foldl (fun s k => if hit.testBit k ∧ ¬ seen.testBit k then raiseP s m evLedgerOver (w32 (k + 1)) 0 0 else s) s
  onLeaf s m fun l => { l with led := { l.led with overOwn := hit } }

/-- The models of a leaf and its hoop's members, and the comparison with their bounds (R105, R115, R143, R150). -/
def step3 (s : State) (u : Nat) : State :=
  if s.fw.profile.isNone then s
  else
    let out := if (parallelOf s u).isSome then (groupOf s u).filter fun m => (leafOf s m).st == .retired else []
    let own := u :: out.filter (· != u)
    let s := (groupOf s u).foldl fetStep s
    let s := own.foldl wireStep s
    let s := own.foldl (fun s m => ltClearOp m (episodeStep s m)) s
    let s := out.foldl ownLedgerOver s
    let hit := boundsHit s u
    if (vleaf s u).st.conducting then
      let s := onLeaf s u fun l => { l with led := { l.led with overSeen := 0 } }
      if hit = 0 then s else onV s u fun l => { l with causes := l.causes ||| boundCause hit }
    else ledgerOver s u hit

/-! ## Step 4: seating, cross-trip, sheds (R105, R133 to R137, R205) -/

/-- A SCOPE 2 debug unlock stands (R434). -/
def debugHold (s : State) : Bool := match s.fw.debug with | some (2, _) => true | _ => false

/-- Without a profile every unit but a regulator, and a regulator whose strap is open, stays OFF (R226). -/
def profileHolds (s : State) (u : Nat) : Bool :=
  s.fw.profile.isNone && (leafKind u != .regulator || (if u = 68 then s.fw.strap0 else s.fw.strap1) == 7)

/-- A start is not taken: SAFE_HOLD stands (R432), a SCOPE 2 unlock stands and the unit is no regulator (R434), the device is park pending and the
unit is not park-kept (R442), an escalation holds the feed (R182), or no profile lets it start (R226). -/
def noStart (s : State) (u : Nat) : Bool :=
  s.fw.safeHold || (leafKind u == .feed && (heldFeeds s).contains u) || profileHolds s u || (debugHold s && leafKind u != .regulator) || (s.power.parkPending && !(leafOf s (slotOf s u)).env.parkKeep)

/-- Seating is confirmed (R133): every mapped pin mated for 5 ms; AUTO_MATE re-arms a feed (R196). Of a feed's two pins SEAT_CONFIRM names the second, and
SEAT_RELEASE the first that is released (R122; DESIGN CHOICE, log entry 85). -/
def seatConfirmOp (u : Nat) (s : State) : State :=
  let pins := seatsOf s u
  if pins.isEmpty ∨ s.press.confirmed.contains u ∨ ¬ (pins.all fun i => decide (5000 ≤ Tbl.get 0 s.press.mated i)) then s
  else
    let s := s.onPress fun p => { p with confirmed := p.confirmed ++ [u] }
    let s := raiseP s (eventUnit s u) evSeatConfirm (w32 (pins.getLast?.getD 0)) 0 0
    let l := leafOf s u
    if leafKind u = .feed ∧ (feedParams s u).autoMate ∧ l.autoMate ∧ l.st = .off ∧ ¬ l.shedHeld ∧ ¬ noStart s u then enterArm s u false else s

/-- A trip or damage lock is decided for a unit in this tick, so nothing lower moves it (R38). -/
def decided (s : State) (u : Nat) : Bool := (vleaf s u).causes != 0 && (vleaf s u).st.conducting

/-- A turn-off of step 4, where no trip is decided: OFF, and a UNIT_ON of the tick loses to it with the status given (R38, R138). -/
def step4Off (s : State) (u ended status : Nat) : State :=
  if decided s u then s else onLeaf (toOff s u true true ended) u fun l => { l with offNow := status }

/-- A seat release completed by the Press (R134, R138): OFF, the confirmation withdrawn, SEAT_RELEASE. A feed that it turns off may re-arm by AUTO_MATE
(R196). -/
def seatStep (s : State) (u : Nat) : State :=
  if (leafOf s u).offSeat then
    let pin := ((seatsOf s u).find? fun i => (Tbl.find s.press.mated i).isNone).getD ((seatsOf s u).headD 0)
    let was := (vleaf s u).st.active && !decided s u
    let s := s.onPress fun p => { p with confirmed := p.confirmed.filter (· != u) }
    let s := raiseP s (eventUnit s u) evSeatRelease (w32 pin) 0 0
    let s := step4Off s u (256 + stSeat) stSeat
    onLeaf s u fun l => { l with offSeat := false, autoMate := l.autoMate || (was && leafKind u == .feed) }
  else s

/-- Cross-trip of a leaf with reaction OFF while the line is low, or whose OFF latch a pulse on the line has set (R135, R141); the members of a parallel hoop
share one state, so one with the reaction moves them all (R46, R106). -/
def xtripStep (s : State) (u : Nat) : State :=
  let due := (liveOf s u).any fun m => (s.press.xtripLow && (leafOf s m).env.xtripOff) || (leafOf s m).offXtrip
  let s := (groupOf s u).foldl (fun s m => onLeaf s m fun l => { l with offXtrip := false }) s
  if due ∧ (vleaf s u).st.active ∧ ¬ decided s u then raiseP (step4Off s u stState stState) (eventUnit s u) evXtripOff 0 0 0 else s

/-- A shed completed by the Press (R67, R137, R205): by the lowest trigger whose shed gate has fired since the last tick, or else by the one that holds. A unit
in COOL has its retry cancelled. -/
def shedStep (s : State) (u : Nat) : State :=
  let c := (leafOf s u).env.shedClass
  let k? := if (leafOf s u).offShed then some (leafOf s u).shedBy else shedTrigger s c
  let s := onLeaf s u fun l => { l with offShed := false }
  match k? with
  | some k =>
    let s := onV s u fun l => { l with shedHeld := true, coolShed := l.coolShed || l.st == .cool }
    if (vleaf s u).st.active ∧ ¬ decided s u then raiseP (step4Off s u stState stState) (eventUnit s u) evShed (w32 k) (w32 c) 0 else s
  | none => onV s u fun l => { l with shedHeld := false }

/-- OFF latches of other origin: OV_OFF and escalations (R182, R199). -/
def latchStep (s : State) (u : Nat) : State :=
  if (leafOf s u).offFeed ∧ (vleaf s u).st.active then step4Off s u stState stState else s

/-- Step 4 (R105). A leaf for which a trip or a damage lock is decided is not also turned off (R38); all else of the step is done for it. -/
def step4 (s : State) (u : Nat) : State := latchStep (shedStep (xtripStep (seatStep (seatConfirmOp u s) u) u) u) u

/-! ## Step 5: transitions (R37, R38, R105) -/

/-- A trip decided in steps 1 to 3, of a stalled ramp too (R38, R117, R120). -/
def tripStep (s : State) (u : Nat) : State :=
  let v := vleaf s u
  if v.causes ≠ 0 then (if v.st.conducting then trip s u v.causes else onV s u fun l => { l with causes := 0 }) else s

/-- The fault timer expires (R113): a trip with cause FAULT_TIME, and with the causes that step 1 finds standing; a damage verdict that step 1 acts on comes
before it (R120, R132). -/
def faultTimerExpiryOp (u : Nat) (s : State) : State :=
  if faultDue s u then
    let s := step1 s u
    tripStep (onV s u fun l => { l with causes := l.causes ||| 4 }) u
  else s

/-- The end of a ramp for a member: MEMBER_TRACK with its largest deviation where that was above 0.3 V, once in the ramp (R48), and its tracking count (R186). A
ramp in which a retired member reported nothing restarts its count too. -/
def trackCount (s : State) (m : Nat) : State :=
  let d := (leafOf s m).ramp.trackMax
  if 300 < d ∧ (leafOf s m).st ≠ .retired then
    let s := raiseP (onLeaf s m fun l => { l with diag := { l.diag with trackCount := satN 15 (l.diag.trackCount + 1) } })
      (eventUnit s m) evMemberTrack (w32 m) (w32i (roundStep d)) 0
    if soft s m fTrackLimit ≤ (leafOf s m).diag.trackCount then setVerdict s m 4 else s
  else onLeaf s m fun l => { l with diag := { l.diag with trackCount := 0 } }

/-- The ramp of a unit is complete (R81, R208, R217). -/
def rampComplete (s : State) (u : Nat) : Bool :=
  let v := vleaf s u
  if leafKind u = .hold then decide ((soft s u fIChg : Rat) ≤ s.press.hold.iRef)
  else decide (supplyMv s u ≤ v.ramp.setpoint) && decide (supplyMv s u - (soft s u fVDone : Rat) ≤ outMv s u)

/-- A ramp completes (R81, R83, R84, R118, R152, R173, R186, R195): the unit enters ON. -/
def rampDoneOp (u : Nat) (s : State) : State :=
  let v := vleaf s u
  if v.st = .ramp ∧ rampComplete s u then
    let out := outMv s u
    let sup := supplyMv s u
    let fit := if leafKind u = .channel ∨ leafKind u = .feed then fitResult v.ramp out sup else none
    let src := eventUnit s u
    let fwd := leafKind u == .feed && !(cellOf s (196 + u)).level && decide (out ≤ sup)
    let s := onV s u fun l =>
      { closeEpisode l with st := .on, sub := ofB fwd, gate := if leafKind u = .hold then .holdOff else askGate l .enhance,
                            gateR := fwd && l.gateR, pgUs := 0,
                            ramp := { l.ramp with stall := false, limiting := false, capInvalid := fit.isNone, vdDone := sup,
                                                  capEst := match fit with | some f => f.1 | none => l.ramp.capEst,
                                                  resEst := match fit with | some f => f.2 | none => l.ramp.resEst },
                            pwm := { l.pwm with running := false, startAt := s.time.gtc } }
    let s := (liveOf s u).foldl (fun s m => onLeaf s m fun l =>
      { l with diag := { l.diag with gateOpen := leafKind u == .channel, gateUs := 0, gateFrom := s.time.gtc, gateLast := none, gateLow := false } }) s
    let s := if leafKind u = .channel then restagger (refreshCodes s u) (bankOf u) else s
    let w := vleaf s u
    raiseP s src evRampDone (w32 w.ramp.capEst) (w32i w.ramp.resEst)
      (w32 ((roundStep w.led.eEvLast).toNat % 2147483648 + ofB w.ramp.capInvalid * 2147483648))
  else s

/-- The bank's normal drain range in mV (R70). -/
def bankRange (s : State) (b : Nat) : Rat × Rat :=
  if (match s.fw.profile with | some p => p.net48.getD b false | none => false) then (24000, 58000) else (6000, 36000)

/-- Check 1 of pre-flight (R71, R158, R195, R208, R217). -/
def preflight1 (s : State) (u : Nat) : Bool :=
  match leafKind u with
  | .feed => vinOk s u
  | .regulator => decide (((regParams s u).vinMin : Rat) ≤ mv s 242)
  | .hold => let r := bankRange s (holdParams s).bank; decide (r.1 ≤ mv s (192 + (holdParams s).bank) ∧ mv s (192 + (holdParams s).bank) ≤ r.2)
  | _ => let r := bankRange s (bankOf u); decide (r.1 ≤ mv s (192 + bankOf u) ∧ mv s (192 + bankOf u) ≤ r.2)

/-- Check 4 of pre-flight (R158). -/
def preflight4 (s : State) (u : Nat) : Bool :=
  let l := leafOf s u
  !hasWire l.env || decide (l.led.tc < wireBound l.env)

/-- Check 6 of pre-flight (R158): every non-retired member with its share of the predicted energy and power. -/
def preflight6 (s : State) (u : Nat) : Bool :=
  let p := rampEnergy s u
  let n : Rat := ((liveOf s u).length : Rat)
  (liveOf s u).all fun m => decide (tjPred s m (p.1 / n) (p.2 / n) ≤ sixteenth (leafOf s m).env.tjMax)

/-- The first pre-flight check that fails, 3 for seating that is awaited, none when the unit may enter RAMP (R158). -/
def preflightCheck (s : State) (u : Nat) : Option Nat :=
  let full := leafKind u == .channel || leafKind u == .feed
  if ¬ preflight1 s u then some 1
  else if leafKind u = .channel ∧ (pumpOf s (bankOf u)).uv then some 2
  else if ¬ seated s u then some 3
  else if ¬ preflight4 s u then some 4
  else if full ∧ ((leafOf s u).env.eFetMax : Rat) < (rampEnergy s u).1 * 1000 then some 5
  else if full ∧ ¬ preflight6 s u then some 6
  else none

/-- A bank that converts a node of the unit has its buffer on the way up again, so pre-flight waits for REF_READY (R241). -/
def refAwaited (s : State) (u : Nat) : Bool :=
  ((groupOf s u).map iNode ++ [vNode u, supplyNode u]).any fun n => (mbank s (nodeBank n)).rewake

/-- Pre-flight decides on a unit in ARM from the tick after its entry, or after seating was confirmed, on; a unit that passes enters RAMP a tick later (R37,
R104, R157, R158, R225). -/
def preflightOp (u : Nat) (s : State) : State :=
  let v := vleaf s u
  if v.st = .arm ∧ tickUs s ≤ v.armUs ∧ ¬ refAwaited s u then
    match preflightCheck s u with
    | none => if 2 * tickUs s ≤ v.armReady.getD 0 then rampDoneOp u (enterRamp s u) else s
    | some 3 => s
    | some k =>
      let p := rampEnergy s u
      let n : Rat := ((liveOf s u).length : Rat)
      let ts := (liveOf s u).map fun m => tjPred s m (p.1 / n) (p.2 / n)
      let t := ts.foldl (fun t x => if t < x then x else t) (ts.headD 0)
      let s := raiseP s (eventUnit s u) evPreflightRefuse (w32 k) (w32i (roundStep (p.1 * 1000))) (w32i (tempSteps t 16))
      toOff s u false false stPreflight
  else s

/-- Seating has not been confirmed within PROT_T_ARM (R37, R138). -/
def tArmOp (u : Nat) (s : State) : State :=
  let v := vleaf s u
  if v.st = .arm ∧ ¬ seated s u ∧ wholeTicks s (soft s u fTArm * 1000) ≤ v.armUs then toOff s u false false stSeat else s

/-- The wire and FET models are below re-arm (R129, R143). -/
def rearmed (s : State) (u : Nat) : Bool :=
  let l := leafOf s u
  (!hasWire l.env || decide (l.led.tc < sixteenth l.env.wireRearm))
    && (liveOf s u).all fun m => !hasFet (leafOf s m).env || decide ((leafOf s m).led.tj < sixteenth (leafOf s m).env.tjRearm)

/-- A retry (R40, R129, R137): COOL leads to ARM, or to OFF when the retry is cancelled or the class is held shed. -/
def retryOp (u : Nat) (s : State) : State :=
  let v := vleaf s u
  if v.st = .cool ∧ v.retryUs = 0 ∧ rearmed s u then
    if v.retryCancelled ∨ v.coolShed ∨ v.shedHeld ∨ noStart s u then
      onV s u fun l => { l with st := .off, sub := 0, retryCancelled := false, coolShed := false }
    else
      let src := eventUnit s u
      let s := enterArm s u true
      if (vleaf s u).st = .arm then raiseP s src evRetry (w32 v.retries) (w32 v.retryMs) 0 else s
  else s

/-- The clean interval has passed in ON (R130). -/
def cleanOp (u : Nat) (s : State) : State :=
  if soft s u fCleanInt * 1000000 ≤ (vleaf s u).cleanT then onV s u fun l => { l with cleanT := 0, retries := l.retries - 1 } else s

/-- The timers of a leaf over a tick (R37, R128, R130, R204). -/
def timers (s : State) (u : Nat) : State :=
  let us := tickUs s
  let conf := seated s u
  let ok := leafKind u == .feed && vinOk s u
  onV s u fun l =>
    { l with retryUs := l.retryUs - us, armUs := if l.st = .arm then l.armUs + us else 0,
             armReady := if l.st = .arm ∧ conf then some ((l.armReady.map (· + us)).getD 0) else none,
             cleanT := if l.st = .on then l.cleanT + us else l.cleanT,
             recoverUs := if l.lost && l.st == .on && ok then l.recoverUs + us else 0 }

/-- A trip or a command has moved a leaf in this tick since step 5 began in `s0`, or has cancelled its retry (R38, R40). -/
def movedIn (s0 s : State) (u : Nat) : Bool := (vleaf s u).st != (vleaf s0 u).st || (vleaf s u).retryCancelled != (vleaf s0 u).retryCancelled

/-- The end of step 5 (R37, R38, R105): after trips and commands the timer-driven transitions of a leaf that neither has moved. -/
def timedStep (s0 s : State) (u : Nat) : State :=
  let s := if leafKind u = .feed then tRecoverOp u s else s
  if movedIn s0 s u then s else cleanOp u (retryOp u (tArmOp u (preflightOp u (rampDoneOp u s))))

/-! ## Step 6: power-good (R123 to R125, R200, R214, R218) -/

/-- The output of a leaf is inside its PG window. -/
def inWindow (s : State) (u : Nat) : Bool :=
  match leafKind u with
  | .feed => !cellRead s (208 + u) && vinOk s u
  | .hold => decide ((soft s u fVRelease : Rat) + 500 ≤ outMv s u)
  | .regulator =>
    decide ((soft s u fVout : Rat) * (soft s u fPgLo : Rat) ≤ outMv s u * 1000 ∧ outMv s u * 1000 ≤ (soft s u fVout : Rat) * (soft s u fPgHi : Rat))
  | _ =>
    let l := vleaf s u
    (l.sub == 1 && l.pwm.running) || (!cellRead s (64 + u) && (soft s u fPgOv == 0 || !cellRead s (128 + u)))

/-- PG must drop (R124). -/
def pgDrops (s : State) (u : Nat) : Bool :=
  let v := vleaf s u
  !(v.st == .on || v.st == .limit) || !inWindow s u || (v.limitNow && soft s u fPgDrop == 1)

/-- PG changes (R123, R124): asserts once qualified, deasserts at once. -/
def pgChangeOp (u : Nat) (s : State) : State :=
  let v := vleaf s u
  if v.pg then
    (if pgDrops s u then raiseP (onV s u fun l => { l with pg := false, pgUs := 0 }) (eventUnit s u) evPgChange 0 0 0 else s)
  else if v.st = .on ∧ inWindow s u ∧ wholeTicks s (soft s u fTPg) + tickUs s ≤ v.pgUs then
    raiseP (onV s u fun l => { l with pg := true }) (eventUnit s u) evPgChange 1 0 0
  else s

/-- A ramp of a parallel hoop has ended, so its members' deviations are reported and counted (R48, R186). -/
def countRamp (s : State) (u : Nat) : State :=
  if (parallelOf s u).isNone ∨ (vleaf s u).st = .ramp then s
  else (groupOf s u).foldl (fun s m =>
    if (leafOf s m).ramp.counting then
      trackCount (onLeaf s m fun l => { l with ramp := { l.ramp with counting := false } }) m
    else s) s

/-- Step 6 (R105, R123, R186): the qualification counts the ticks in ON with the output in its window. -/
def step6 (s : State) (u : Nat) : State :=
  let ok := (vleaf s u).st == .on && inWindow s u
  let us := tickUs s
  let s := onV s u fun l => { l with pgUs := if ok then l.pgUs + us else 0 }
  onV (countRamp (pgChangeOp u s) u) u fun l => { l with limitNow := false }

/-- The leaves evaluated in a tick: every leaf but the members of a parallel hoop other than its slot channel (R106). -/
def slots (s : State) : List Nat := leafNums.filter fun u => slotOf s u == u

/-! ## HOLD (R208 to R210, R213) -/

/-- ½·C·V² of the store in mJ, C in µF, V in mV (R209). -/
def storeEnergy (s : State) : Rat := (s.press.hold.storeCap : Rat) * mv s 216 * mv s 216 / 2000000000

/-- The charger's current reference in ON and LIMIT (R208, R209): HOLD_I_CHG while it switches, 0 in TOPPED, in a release and while its input is too low. -/
def chargeRef (s : State) : State :=
  let l := leafOf s 70
  if l.st = .on ∨ l.st = .limit then
    let run := l.st = .on ∧ l.sub = 0 ∧ mv s 216 + 2000 ≤ mv s (192 + (holdParams s).bank)
    s.onPress fun p => { p with hold := { p.hold with iRef := if run then (soft s 70 fIChg : Rat) else 0 } }
  else s

/-- The charger's substate (R209): TOPPED at the target or the energy cap, CHARGING again below the hysteresis. -/
def chargeStep (s : State) : State :=
  let l := leafOf s 70
  let v := mv s 216
  let cap := decide (((holdParams s).eStoreMax : Rat) ≤ storeEnergy s)
  if l.st ≠ .on ∨ l.sub = 2 then s
  else if l.sub = 0 then
    if (soft s 70 fVTarget : Rat) ≤ v ∨ cap then onLeaf s 70 fun l => { l with sub := 1 }
    else if mv s (192 + (holdParams s).bank) < v + 2000 then
      (if s.press.hold.inputLow then s
       else raiseP (s.onPress fun p => { p with hold := { p.hold with inputLow := true } }) 70 evHoldInputLow
          (w32i (roundStep (mv s (192 + (holdParams s).bank)))) (w32i (roundStep v)) 0)
    else s.onPress fun p => { p with hold := { p.hold with inputLow := false } }
  else if v < (soft s 70 fVTarget : Rat) - (soft s 70 fVHyst : Rat) ∧ ¬ cap then onLeaf s 70 fun l => { l with sub := 0 }
  else s

/-- STORE_CAP (R210): C = ΔQ / ΔV each time the store has risen 1 V while charging between 30 % and 90 % of the target, to the nearest µF, a tie upward (DESIGN
CHOICE, log entry 86). -/
def storeStep (s : State) : State :=
  let l := leafOf s 70
  let v := mv s 216
  let t : Rat := (soft s 70 fVTarget : Rat)
  if l.st = .on ∧ l.sub = 0 ∧ t * 3 / 10 ≤ v ∧ v ≤ t * 9 / 10 then
    match s.press.hold.dvFrom with
    | none => s.onPress fun p => { p with hold := { p.hold with dvFrom := some v, dq := 0 } }
    | some v0 =>
      let dq := s.press.hold.dq + unitMa s 70 * (tickUs s : Rat)
      if 1000 ≤ v - v0 then
        let c := (ratRound (dq / (v - v0))).toNat
        let nom := l.env.cNom
        let s := s.onPress fun p => { p with hold := { p.hold with storeCap := c, estimated := true, dq := 0, dvFrom := some v } }
        if c * 10 > nom * 13 ∨ c * 10 < nom * 7 then raiseP s 70 evHoldCapDrift (w32 c) (w32 nom) 0 else s
      else s.onPress fun p => { p with hold := { p.hold with dq := dq } }
  else s.onPress fun p => { p with hold := { p.hold with dvFrom := none, dq := 0 } }

/-- E_rel and the end of a release over a tick (R213): the store current is measured positive into the store. -/
def releaseStep (s : State) : State :=
  if s.press.holdTrigger then
    let i := leafMa s 70
    let us := tickUs s
    let e := mv s 216 * (-i) * (us : Rat) / 1000000000
    let above := decide (-((leafOf s 70).env.iRated : Rat) < i * 100)
    holdReleaseEndOp (s.onPress fun p => { p with hold := { p.hold with eRel := p.hold.eRel + e, endUs := if above then p.hold.endUs + us else 0 } })
  else s

/-- HOLD over a tick. -/
def holdStep (s : State) : State := chargeRef (chargeStep (storeStep (releaseStep s)))

/-! ## The latched inputs of a tick (R103) -/

/-- A change of a cell's output since the last boundary: the clockless actions of trip and feed cells, the edge flags of privileged ones. -/
def cellChange (s : State) (c : Nat) (level : Bool) : State :=
  let fall (s : State) : State := onCell s c fun x => { x with level := false, blanked := false }
  if c < 64 then (if level then tripCellFireOp c s else fall s)
  else if 256 ≤ c ∧ c < 260 then (if level then feedShortOp (c - 192) s else fall s)
  else if 260 ≤ c ∧ c < 264 then (if level then feedReverseOp (c - 196) s else feedReverseReleaseOp (c - 196) s)
  else if 340 ≤ c ∧ c < 344 then supplyEdge s c level
  else if 268 ≤ c ∧ c < 272 ∧ level then feedVinOvOp (c - 204) s
  else if 64 ≤ c ∧ c < 192 ∧ blanked s (c % 64) then (if level then onCell s c fun x => { x with level := true, blanked := true } else fall s)
  else if c < 344 then genericChange s c level
  else s

/-- A cell compares the input it sees with its threshold, in the mode its power state gives it (R265, R268, R269, R270): a cell that is off does not, nor one
that holds its output. -/
def compareCell (s : State) (c : Nat) : State :=
  if cellMode s s.power.mode c = .off ∨ heldNow s c then s
  else match cellNext s c with
    | some out => if out = (cellOf s c).level then s else cellChange s c out
    | none => s

/-- The inputs that have changed since the last boundary (R103, R265). -/
def seenCells (s : State) (inp : TickInputs) : State :=
  inp.fwd.foldl (fun s v => seeFwd s v.1 v.2) (inp.cells.foldl (fun s c => seeInput s c.1 c.2) s)

/-- V_FWD above FEED_V_ON raises FGRn (R197). -/
def forwardFeeds (s : State) (inp : TickInputs) : State :=
  inp.fwd.foldl (fun s v => if (soft s (64 + v.1) fVOn : Int) < v.2 then feedConductOp (64 + v.1) s else s) s

/-- The boundary latches the changes since the last (R103, R111, R133, R173). Where both loops of a unit have held its gate since the last boundary the power
loop is latched (R111, R122 leave it open; DESIGN CHOICE, log entry 85). -/
def latchInputs (s : State) (inp : TickInputs) : State :=
  let s := seenCells s inp
  let s := forwardFeeds ((s.cmp.cells.map (·.1)).foldl compareCell s) inp
  let s := [64, 65, 66, 67].foldl feedSub s
  let s := leafNums.foldl (fun s u =>
    let lp := if inp.loops.any (fun p => p.1 == u && p.2) then 2 else if inp.loops.any (fun p => p.1 == u) then 1 else 0
    let src := inp.srcLimit.contains u
    onLeaf s u fun l => { l with loop := lp, diag := { l.diag with srcLimit := src } }) s
  let s := [0, 1, 2, 3].foldl (fun s b => onPump s b fun p => { p with margin := inp.pumps.getD b p.margin }) s
  let s := (List.range 64).foldl clampStep s
  s.onPress fun p =>
    let us := tickUs s
    let m : Tbl Nat := p.mated.map fun x => (x.1, satN 5000 (x.2 + us))
    { p with mated := inp.mated.foldl (fun m i => if i < 16 ∧ (Tbl.find m i).isNone then Tbl.put m i 0 else m) m }

end Sys2Proof.Machine
end

