-- ==== Sys2Proof/Machine/Diagnostics.lean ====
section
/-!
DEFINITION. Machine/Diagnostics.lean: the off-state check, the turn-on checks, OPEN and imbalance (R168 to R187).
-/

namespace Sys2Proof.Machine

/-- V_GS of a channel from usable samples, mV (R169). -/
def vgs (s : State) (ch : Nat) : Option Rat :=
  match usableMv s (gNode ch), usableMv s (vNode ch) with
  | some g, some v => some (g - v)
  | _, _ => none

/-- States in which the off-state check runs (R170). -/
def UState.offState : UState → Bool
  | .off | .arm | .cool | .lock | .retired => true
  | _ => false

/-- The off-state check runs on a channel (R170, R176): the hoop, or a retired member itself, is off, the driver has held off for 1 ms, no episode is open. -/
def offRuns (s : State) (ch : Nat) : Bool :=
  let l := leafOf s ch
  (vleaf s ch).st.offState && l.st.offState && decide (1000 ≤ l.diag.holdOffUs) && !(leafOf s (slotOf s ch)).led.evOpen

/-- The off-state samples of a channel over a tick (R170, R172). The common output of a parallel hoop is measured for each member at that member's own output
node (DESIGN CHOICE, log entry 115). -/
def offTick (s : State) (ch : Nat) : State :=
  let us := tickUs s
  let v := usableMv s (vNode ch)
  let i := usableMa s ch
  let iAt := (nodeOf s (iNode ch)).at_
  let thr : Rat := (soft s ch fLeakV : Rat)
  let run := offRuns s ch
  onLeaf s ch fun l =>
    let d := l.diag
    let d := { d with holdOffUs := if l.gate = .holdOff then satN 1000 (d.holdOffUs + us) else 0,
                      quietUs := match v with | some x => if x < thr then d.quietUs + us else 0 | none => d.quietUs }
    if run then
      match v with
      | some x =>
        if x < thr then { l with diag := { d with leakUs := 0, leakI := [] } }
        else
          let d := { d with leakUs := d.leakUs + us }
          match i with
          | some c => if iAt = d.leakAt then { l with diag := d } else { l with diag := { d with leakI := (c :: d.leakI).take 16, leakAt := iAt } }
          | none => { l with diag := d }
      | none => { l with diag := d }
    else { l with diag := { d with leakUs := 0, leakI := [] } }

/-- The off-state check completes (R170): DS_SHORT, or a BACKFEED report. -/
def offStateOp (ch : Nat) (s : State) : State :=
  let d := (leafOf s ch).diag
  if offRuns s ch ∧ checkTime s ch ≤ d.leakUs ∧ d.leakI.length = 16 then
    if (soft s ch fLeakI : Rat) ≤ meanOf d.leakI then
      (if d.verdict = 1 then s else setVerdict s ch 1)
    else
      let s := onLeaf s ch fun l => { l with diag := { l.diag with backfeed := true } }
      if ¬ d.backfeed ∧ (soft s ch fReportEn).testBit 0 then
        raiseP s (eventUnit s ch) evBackfeed (w32i (roundStep (meanOf d.leakI))) (w32i (roundStep (outMv s ch))) 0
      else s
  else s

/-- A BACKFEED report ends (R172). -/
def backfeedEndOp (ch : Nat) (s : State) : State :=
  let d := (leafOf s ch).diag
  if d.backfeed ∧ checkTime s ch ≤ d.quietUs then onLeaf s ch fun l => { l with diag := { l.diag with backfeed := false } } else s

/-- A pinned gate crossed with the off-state result at ARM (R177): GS_SHORT, or DS_SHORT over BACKFEED or DS_SHORT. -/
def pinned (s : State) (ch : Nat) : State :=
  let d := (leafOf s ch).diag
  setVerdict s ch (if d.backfeedAtArm ∨ d.shortAtArm then 1 else 2)

/-- A gate that rises without conduction, crossed with the off-state result at ARM (R177). -/
def openGate (s : State) (ch : Nat) : State := setVerdict s ch (if (leafOf s ch).diag.shortAtArm then 1 else 3)

/-- The end of the gate check window with V_GS of its last sample (R173, R177). -/
def gateDecision (s : State) (ch : Nat) (g : Rat) : State :=
  let d := (leafOf s ch).diag
  let s := onLeaf s ch fun l => { l with diag := { l.diag with gateOpen := false, gateLast := none } }
  if d.srcLimit ∧ g ≤ 1000 then pinned s ch
  else if (pumpOf s (bankOf ch)).uv then s
  else if d.shortAtArm then setVerdict s ch 1
  else
    let s := onLeaf s ch fun l => { l with diag := { l.diag with gateLow := true, backfeed := l.diag.backfeed || d.backfeedAtArm } }
    if (soft s ch fReportEn).testBit 1 then raiseP s (eventUnit s ch) evGateLow (w32i (roundStep g)) 0 0 else s

/-- The gate passes (R173, R177): a BACKFEED report that stood at ARM goes on standing, a DS_SHORT is found again. -/
def gatePasses (s : State) (ch : Nat) : State :=
  let d := (leafOf s ch).diag
  let s := onLeaf s ch fun l =>
    { l with diag := { l.diag with gateOpen := false, gateLast := none, gateLow := false, backfeed := l.diag.backfeed || d.backfeedAtArm } }
  if d.shortAtArm ∧ d.verdict ≠ 1 then setVerdict s ch 1 else s

/-- V_GS at a gate sample that the check may use (R169, R173): one of the window, or the next usable one where the window held none. -/
def gateSample (s : State) (ch : Nat) : Option Rat :=
  let d := (leafOf s ch).diag
  let t := (nodeOf s (gNode ch)).at_
  if d.gateFrom < t ∧ (t ≤ d.gateFrom + usGtc (wholeTicks s (soft s ch fTGate)) ∨ d.gateLast.isNone) then vgs s ch else none

/-- The ENHANCE gate check (R173) of a member that is not retired: it passes at the first good sample in its window; the last sample decides at its end. -/
def gateCheckOp (ch : Nat) (s : State) : State :=
  let d := (leafOf s ch).diag
  let st := (vleaf s ch).st
  if ¬ d.gateOpen then s
  else if ¬ (st = .on ∨ st = .limit) ∨ (leafOf s ch).st = .retired then onLeaf s ch fun l => { l with diag := { l.diag with gateOpen := false, gateLast := none } }
  else
    let new := gateSample s ch
    match new.orElse fun _ => d.gateLast with
    | none => s
    | some g =>
      if new.isSome ∧ (soft s ch fVgsOk : Rat) ≤ g then gatePasses s ch
      else if wholeTicks s (soft s ch fTGate) < d.gateUs then gateDecision s ch g
      else onLeaf s ch fun l => { l with diag := { l.diag with gateLast := some g } }

/-- The first gate sample of a member that falls DIAG_T_GATE after RAMP_STALL was recorded, as V_GS (R174). One at which the current is not below DIAG_LEAK_I
examines nothing, and a later one may (DESIGN CHOICE, log entry 116). -/
def stallSample (s : State) (ch : Nat) : Option Rat :=
  let u := slotOf s ch
  if (vleaf s u).ramp.stallAt + usGtc (wholeTicks s (soft s u fTGate)) ≤ (nodeOf s (gNode ch)).at_ then vgs s ch else none

/-- A stalled ramp's gate examined (R169, R174): each non-retired member by its own, with the summed current of usable samples. -/
def stallExaminationOp (ch : Nat) (s : State) : State :=
  let u := slotOf s ch
  let v := vleaf s u
  let live := liveOf s u
  let is := live.filterMap (usableMa s)
  if v.st = .ramp ∧ v.ramp.stall ∧ live.contains ch ∧ ¬ (leafOf s ch).ramp.examined ∧ is.length = live.length
      ∧ is.foldl (· + ·) 0 < (soft s u fLeakI : Rat) then
    match stallSample s ch with
    | some g =>
      let s := onLeaf s ch fun l => { l with ramp := { l.ramp with examined := true } }
      if g ≤ 1000 then pinned s ch else if (soft s u fVgsOk : Rat) ≤ g then openGate s ch else s
    | none => s
  else s

/-- The condition of R175 for a channel in this tick, never in PWM (R176); none where a sample it needs is not usable (R169). -/
def openNow (s : State) (ch : Nat) : Option Bool :=
  let v := vleaf s ch
  if v.sub = 1 ∨ ¬ (leafOf s ch).st.conducting then some false
  else match vgs s ch, usableMa s ch with
    | some g, some i =>
      if (parallelOf s ch).isNone then
        match usableMv s (vNode ch), usableMv s (supplyNode ch) with
        | some out, some vd =>
          some (v.st == .on && decide ((soft s ch fVgsOk : Rat) ≤ g ∧ out * 2 < vd ∧ i < (soft s ch fLeakI : Rat)))
        | _, _ => none
      else
        let live := liveOf s ch
        let is := live.filterMap (usableMa s)
        let sum := is.foldl (· + ·) 0
        if is.length < live.length then none
        else some ((v.st == .on || v.st == .limit)
          && decide ((soft s ch fVgsOk : Rat) ≤ g ∧ i * 10 * (live.length : Rat) < sum ∧ ((soft s ch fLeakI * live.length : Nat) : Rat) ≤ sum))
    | _, _ => none

/-- A conducting unit or member shows no current (R175): OPEN, crossed under R177. -/
def openCheckOp (ch : Nat) (s : State) : State :=
  let d := (leafOf s ch).diag
  if openNow s ch = some true ∧ checkTime s ch ≤ d.openUs ∧ d.verdict ≠ 3 ∧ d.verdict ≠ 1 then openGate s ch else s

/-- The running times of the conducting checks of a channel over a tick (R173, R175). -/
def checkTick (s : State) (ch : Nat) : State :=
  let us := tickUs s
  let o := openNow s ch
  onLeaf s ch fun l =>
    let d := l.diag
    { l with diag := { d with gateUs := if d.gateOpen then d.gateUs + us else d.gateUs,
                              openUs := match o with | some true => d.openUs + us | some false => 0 | none => d.openUs } }

/-- The diagnostic checks of a channel over a tick; none runs while the buffer of its current node's bank is off (R241); a verdict waits for the next step 1
(R179). -/
def diagStep (s : State) (ch : Nat) : State :=
  if bankReleased s ch then s
  else
  let s := checkTick (offTick s ch) ch
  openCheckOp ch (stallExaminationOp ch (gateCheckOp ch (backfeedEndOp ch (offStateOp ch s))))

end Sys2Proof.Machine
end

