-- ==== Sys2Proof/Machine/Commands.lean ====
section
/-!
DEFINITION. Machine/Commands.lean: the life of a command: the checks common to all of them, tags, the in-flight table, ordering, and the one
completion each ends in (R29, R320 to R327, R337 to R347).
-/

namespace Sys2Proof.Machine

/-! ## Completions -/

/-- A tag of a submission ring as a key (R322). -/
def tagKey (sq tag : Nat) : Nat := 4096 * sq + tag

/-- The completion ring of a submission ring (R314). -/
def cqOf (s : State) (sq : Nat) : Nat := (Tbl.get {} s.link.rings sq).cfg.cq

/-- The tiles that some completions take, 32 to a tile (R324, R326). -/
def cqTiles (n : Nat) : Nat := (n + 31) / 32

/-- A completion ring's holder can have tiles for `n` completions more than it holds (R293, R294). -/
def cqRoom (s : State) (q n : Nat) : Bool :=
  let have_ := (refsOf s (ringHolder (16 + q))).length
  let want := cqTiles ((Tbl.get [] s.link.cqHeld q).length + n)
  decide (want ≤ have_) || tilesAvailable s (ringHolder (16 + q)) (want - have_)

/-- The tiles of a completion ring follow its held completions, within what its holder may take (R293, R324, R326). -/
def syncCqTiles (s : State) (q : Nat) : State :=
  if cqRoom s q 0 then syncTiles s (ringHolder (16 + q)) (cqTiles (Tbl.get [] s.link.cqHeld q).length) false else s

/-- A completion queued for its CQ (R324, R326). -/
def pushCompletion (s : State) (c : Completion) : State :=
  (fun s => syncCqTiles s (cqOf s c.sq)) <| s.onLink fun l => { l with cqHeld := Tbl.put l.cqHeld (cqOf s c.sq) (Tbl.get [] l.cqHeld (cqOf s c.sq) ++ [c]) }

/-- The registers of an address class (R464). -/
def busClass (s : State) : BusClass → BusClassState
  | .management => s.bus.mgmt
  | .diagnostic => s.bus.diag

/-- The registers of an address class changed. -/
def onClass (s : State) (cls : BusClass) (f : BusClassState → BusClassState) : State :=
  s.onBus fun b => match cls with
    | .management => { b with mgmt := f b.mgmt }
    | .diagnostic => { b with diag := f b.diag }

/-- An action command of a class completes (R472): RESULT is done, and RESULT_DONE latches for the management class. -/
def busDone (s : State) (cls : BusClass) (status : Nat) (result : Word32) : State :=
  let s := onClass s cls fun c => { c with rState := 2, rStatus := status, rResult := result }
  if cls = .management then latchBus s 11 else s

/-- An entry of the in-flight table changed. -/
def setPhase (s : State) (id : Nat) (ph : Phase) : State :=
  s.onLink fun l => { l with flights := l.flights.map fun g => if g.id = id then { g with phase := ph } else g }

/-- The page request groups outstanding for some transfers. -/
def prgsOf (xs : Tbl Xfer) : List Nat := xs.filterMap fun x => x.2.prg

/-- A tile of a capture slot is being read by a CAPTURE_READ (R287). -/
def captureReading (s : State) (k : Nat) : Bool := (tilesOf s (64 + k)).any fun t => (tagOf s t).state == .reading

/-- A capture slot's tiles released, but for the time in which they are read: then the end of the read releases them (R287, log entry 19). -/
def releaseCapture (k : Nat) (s : State) : State := if captureReading s k then s else releaseAll s (64 + k)

/-- The tiles of an armed slot being filled: its own rewritten, and what it lacks allocated (R262, R285). -/
def armTiles (k : Nat) (s : State) : State :=
  let h := 64 + k
  let n := (capOf s k).tiles
  let s := freeRefs s h ((refsOf s h).drop n)
  let s := ((refsOf s h).filter fun r => (tagOf s r.1).state == .closed).foldl (fun s r => fillTile s h r.1) s
  (List.range (n - (refsOf s h).length)).foldl (fun s _ => allocTile s h) s

/-- The tiles of a slot as its state wants them, once nothing reads them (R285, R287): none for an EMPTY one, and being filled for an armed one. -/
def settleCapture (k : Nat) (s : State) : State :=
  if captureReading s k then s
  else match (capOf s k).state with
    | .empty => releaseAll s (64 + k)
    | .held => s
    | _ =>
      if (refsOf s (64 + k)).length = (capOf s k).tiles ∧ (tilesOf s (64 + k)).all (fun t => (tagOf s t).state == .filling) then s else armTiles k s

/-- A tile whose read begins (R285). -/
def beginRead (s : State) (r : Nat × Nat) : State :=
  if (tagOf s r.1).state = .closed then setTag s r.1 { tagOf s r.1 with state := .reading } else s

/-- A tile whose transfer ends (R285): a bulk tile is released, a capture's is CLOSED again where no other transfer reads it. -/
def endRead (s : State) (r : Nat × Nat) : State :=
  if (tagOf s r.1).holder = 69 then freeRef s 69 r
  else if (tagOf s r.1).state = .reading ∧ ¬ (s.link.xfers.any fun x => x.2.tiles.contains r) then setTag s r.1 { tagOf s r.1 with state := .closed }
  else s

/-- The tiles of the four slots. -/
def settleCaptures (s : State) : State := [0, 1, 2, 3].foldl (fun s k => settleCapture k s) s

/-- Transfers that wait are withdrawn, with their page request groups and their hold on tiles (R285, R303). -/
def dropXfers (s : State) (gone : Xfer → Bool) : State :=
  let rs := (s.link.xfers.filter fun x => gone x.2).flatMap (·.2.tiles)
  let s := s.onLink fun l => { l with xfers := l.xfers.filter fun x => !gone x.2,
                                      prgs := l.prgs.filter fun g => !(prgsOf (l.xfers.filter fun x => gone x.2)).contains g }
  if rs.isEmpty then s else settleCaptures (rs.foldl endRead s)

/-- The in-flight entry of a number. -/
def flightOf (s : State) (id : Nat) : Option Flight := s.link.flights.find? fun f => f.id == id

/-- A command leaves the in-flight table, with its transfers and the bulk tiles of its buffer (R285, R303, R411). -/
def dropFlight (s : State) (id : Nat) : State :=
  let rs := (flightOf s id).elim [] (·.tiles)
  dropXfers (freeRefs (s.onLink fun l => { l with flights := l.flights.filter (·.id != id) }) 69 rs) fun x => x.flight == some id

/-- A command that finds no tile waits to be started, from now on where it does not wait already (R294). -/
def noteWait (f : Flight) (s : State) : State :=
  s.onLink fun l => { l with flights := l.flights.map fun g =>
    if g.id = f.id then { g with phase := .waiting, waitAt := some (g.waitAt.getD s.time.gtc) } else g }

/-- CAP_EST_INVALID in the completion of a ramp's command, however the ramp has ended (R84). -/
def rampInvalid (s : State) (f : Flight) : Bool :=
  match f.phase with
  | .attempt u => (vleaf s (evalUnit s u)).ramp.capInvalid
  | _ => false

/-- A command completes (R323, R324, R327, R337, R422, R472): one completion entry for a host command, the class's RESULT for a bus command. The completion of a
rule's command that is not OK is recorded in the Cave. -/
def finish (s : State) (f : Flight) (status : Nat) (handle result : Word32) : State :=
  let invalid := rampInvalid s f
  let s := dropFlight s f.id
  match f.origin with
  | .host => pushCompletion s { tag := f.sub.tag, gen := f.sub.gen, sq := f.sub.sq, status := status, handle := handle, result := result,
                                noIrq := flag f.sub 1, capInvalid := invalid }
  | .bus cls => busDone s cls status result
  | .firmware => if status = stOk then s else recordRuleEnd s
  | .orphan => s

/-- A command completes with a result of its own. -/
def doneWith (s : State) (f : Flight) (status : Nat) (result : Word32) : State := finish s f status f.sub.handle result

/-- The RESULT a command carries where its rule states none (R344): the state word of the addressed unit, or 0. -/
def defaultResult (s : State) (f : Flight) : Word32 :=
  match f.op.handleUse with
  | .zero => 0
  | .optional => if f.sub.handle = 0 then 0 else stateWord s (handleUnit f.sub.handle)
  | _ => stateWord s (handleUnit f.sub.handle)

/-- A command completes with the RESULT of R344. -/
def done (s : State) (f : Flight) (status : Nat) : State := doneWith s f status (defaultResult s f)

/-! ## The common checks (R29, R322, R338) -/

/-- Commands that reach a member of a parallel hoop (R47). -/
def reachesMember (op : Op) (flags : Byte) : Bool :=
  match op with
  | .telemSnapshot | .unitConfigRead => true
  | .unitRetire | .unitRestore => flags.toNat.testBit 2
  | _ => false

/-- Checks 1 to 4 of R29 (R26, R28). -/
def checkHandle4 (s : State) (h : Word32) : Option Nat :=
  let u := handleUnit h
  if handleDev h ≠ s.link.setup.deviceId then some stWrongDevice
  else if 71 ≤ u ∧ u < 128 then some stRange
  else if 128 ≤ u ∧ u ≠ 255 ∧ (hoopOf s u).isNone then some stStaleHandle
  else if handleGen h ≠ genOf s u then some stStaleHandle
  else none

/-- The handle checks (R29): the status of the first that fails. -/
def checkHandle (s : State) (op : Op) (flags : Byte) (h : Word32) : Option Nat :=
  match checkHandle4 s h with
  | some st => some st
  | none => if (parallelOf s (handleUnit h)).isSome ∧ ¬ reachesMember op flags then some stMember else none

/-- Check 3 of R338. -/
def check3 (s : State) (op : Op) (sub : Submission) : Option Nat :=
  let root (r : Option Nat) : Option Nat :=
    match r with
    | some st => some st
    | none => if handleUnit sub.handle ≠ 255 then some stRange else none
  match op.handleUse with
  | .zero => if sub.handle ≠ 0 then some stRange else none
  | .optional => if sub.handle = 0 then none else checkHandle s op sub.flags sub.handle
  | .root => root (checkHandle s op sub.flags sub.handle)
  | .unit =>
    if op = .unitConfigWrite ∧ flag sub 2 then root (checkHandle s op sub.flags sub.handle) else checkHandle s op sub.flags sub.handle

/-- Check 4 of R338. -/
def check4 (s : State) (op : Op) (sub : Submission) : Option Nat :=
  if sub.time = 0 then none
  else if !op.schedulable then some stUnsupported
  else if s.time.gtc + 4000000000 < sub.time then some stRange
  else none

/-- The least buffer an opcode needs, none where R343 shows none or its condition does not hold. -/
def bufferNeed (op : Op) (sub : Submission) : Option Nat :=
  match op with
  | .unitConfigRead => some 32
  | .unitConfigWrite => if flag sub 2 then some (arg sub 28 1 * 16) else if 4 < arg sub 28 1 then some (arg sub 28 1 * 8) else none
  | .hoopForm | .hoopEdit => some (arg sub 30 1 * 12)
  | .telemSnapshot | .captureRead | .logRead => some 64
  | .seqDefine => some 20
  | .profileLoad | .recipeLoad => some 160
  | .fwStage => some 4096
  | .timeSync => if sub.bufAddr = 0 then none else some 32
  | .diagRun => some 1136
  | _ => none

/-- Check 5 of R338. -/
def check5 (op : Op) (sub : Submission) : Option Nat :=
  match bufferNeed op sub with
  | none => none
  | some n => if sub.bufAddr = 0 ∨ sub.bufLen < n ∨ 4194304 < sub.bufLen then some stRange else none

/-- Checks 3 to 6 of R338 in their order. -/
def commonChecks (s : State) (op : Op) (sub : Submission) : Option Nat :=
  match check3 s op sub with
  | some st => some st
  | none => match check4 s op sub with
    | some st => some st
    | none => match check5 op sub with
      | some st => some st
      | none => check6 s op

/-- A descriptor's tag is refused (R322): in use, or free with a generation that does not follow. -/
def tagRefused (s : State) (sub : Submission) : Bool :=
  let k := tagKey sub.sq sub.tag
  (Tbl.find s.link.tagsBusy k).isSome
    || match Tbl.find s.link.tagGens k with
       | some g => sub.gen != (g + 1) % 16
       | none => false

/-- A descriptor's tag is taken and its generation recorded (R322). -/
def takeTag (s : State) (sub : Submission) : State :=
  let k := tagKey sub.sq sub.tag
  s.onLink fun l => { l with tagsBusy := Tbl.put l.tagsBusy k sub.gen, tagGens := Tbl.put l.tagGens k sub.gen }

/-- A completion of a descriptor that never became a command: RESULT 0 (R344). -/
def refuseSub (s : State) (sub : Submission) (status : Nat) : State :=
  pushCompletion s { tag := sub.tag, gen := sub.gen, sq := sub.sq, status := status, handle := sub.handle, result := 0, noIrq := flag sub 1 }

/-- A descriptor of a defined opcode parsed (R338): refused, or entered in the in-flight table. -/
def parseCommand (s : State) (op : Op) (sub : Submission) : State :=
  if tagRefused s sub then refuseSub s sub stTagBusy
  else
    let s := takeTag s sub
    match commonChecks s op sub with
    | some st => refuseSub s sub st
    | none => addFlight s .host op sub .waiting

/-- A descriptor with an undefined opcode parsed (R338 checks 1 and 2). -/
def parseUndefined (s : State) (sub : Submission) : State :=
  if tagRefused s sub then refuseSub s sub stTagBusy else refuseSub (takeTag s sub) sub stUnsupported

/-- The in-flight command that a submission ring, tag and generation name (R342). -/
def flightByRef (s : State) (c : CommandRef) : Option Flight :=
  s.link.flights.find? fun f => f.origin == .host && f.sub.sq == c.sq && f.sub.tag == c.tag && f.sub.gen == c.gen

/-! ## Ordering (R321, R347) -/

/-- An earlier command of the same ring holds a command back (R321, R347): one not yet started, a FENCE, or any when ORDERED is set. -/
def heldBack (s : State) (f : Flight) : Bool :=
  s.link.flights.any fun g =>
    g.origin == .host && f.origin == .host && decide (g.id < f.id) && g.sub.sq == f.sub.sq
      && (flag f.sub 0 || g.op == .fence || g.phase == .waiting)

/-- SQs a FENCE waits for: its own and the selected ones; a mask of 0 selects every SQ (R347). -/
def fenceSelects (f : Flight) (sq : Nat) : Bool :=
  let m := arg f.sub 28 2
  sq == f.sub.sq || m == 0 || m.testBit sq

/-- A FENCE may complete (R347); with SKIP_SCHED it does not wait for the scheduled actions in the Press. -/
def fenceReady (s : State) (f : Flight) : Bool :=
  !s.link.flights.any fun g =>
    g.origin == .host && decide (g.id < f.id) && fenceSelects f g.sub.sq
      && !(flag f.sub 2 && (g.phase == .scheduled || (g.phase == .deferred && g.sub.time != 0)))

/-! ## Commands at the Press (R21, R22, R38, R341) -/

/-- A leaf of the mask has been served in this tick (R341). -/
def servedNow (s : State) (us : List Nat) : Bool := us.any fun u => s.press.served.contains u

/-- The leaves of a command's mask count as served in this tick (R341). -/
def serve (s : State) (us : List Nat) : State := s.onPress fun p => { p with served := us.filter (fun u => !p.served.contains u) ++ p.served }

/-- A command has been applied in the tick in progress (R39, R344): it completes with this status at the tick's end. -/
def applied (s : State) (f : Flight) (status : Nat) : State := setPhase s f.id (.applied status)

/-- The completion of a command whose tick has ended: with the state word as it then stands, and the new handle of a unit it has retired or restored (R39, R138,
R344, R350). -/
def endApplied (s : State) (f : Flight) (status : Nat) : State :=
  match f.op with
  | .unitRetire | .unitRestore => let u := handleUnit f.sub.handle; finish s f status (handleOf s u) (stateWord s u)
  | _ => done s f status

/-- The slots of a set of leaves, each once. -/
def slotsOf (s : State) (us : List Nat) : List Nat := (us.map (slotOf s)).foldl (fun acc u => if acc.contains u then acc else acc ++ [u]) []

end Sys2Proof.Machine
end

