-- ==== Sys2Proof/Machine/Sequences.lean ====
section
/-!
DEFINITION. Machine/Sequences.lean: turning units on and off, alone and by the sequence tables of group hoops (R39, R40, R54 to R59).
-/

namespace Sys2Proof.Machine

/-! ## One leaf or parallel hoop -/

/-- Why UNIT_ON does not start a unit in OFF (R38, R138, R182, R226, R394, R432, R434, R442), none when it does. -/
def startRefusal (s : State) (u : Nat) : Option Nat :=
  if (leafOf s u).offNow ≠ 0 then some (leafOf s u).offNow
  else if noStart s u then some stState
  else if (leafOf s u).offSeat then some stSeat
  else if s.press.xtripLow ∧ (leafOf s u).env.xtripOff then some stState
  else if (shedTrigger s (leafOf s u).env.shedClass).isSome then some stState
  else none

/-- UNIT_ON of a leaf or of the slot of a parallel hoop (R39, R56, R179): the status with which it is refused, none when the unit is on its way or
already there. -/
def startUnit (u : Nat) (s : State) : State × Option Nat :=
  let st := (vleaf s u).st
  if st.active then (s, none)
  else if st ≠ .off then (s, some stState)
  else match startRefusal s u with
    | some r => (s, some r)
    | none =>
      let s := enterArm s u false
      if (vleaf s u).st = .arm then (s, none) else (s, some stState)

/-- A turn-off as by UNIT_OFF of a leaf or of the slot of a parallel hoop (R39, R40, R86, R138, R196). -/
def unitOffLeaf (u : Nat) (s : State) : State :=
  let s := if leafKind u = .feed then onLeaf s u fun l => { l with autoMate := false } else s
  match (vleaf s u).st with
  | .cool => onV s u fun l => { l with retryCancelled := true }
  | _ => toOff s u false (!slewSelected s u) stState

/-! ## Sequence tables -/

/-- The steps of a table's entries that name one of some members. -/
def stepsFor (h : Hoop) (ms : List Nat) : List Nat := (h.table.filter fun e => ms.contains e.member).map (·.step)

/-- The lowest of some numbers. -/
def lowest : List Nat → Option Nat
  | [] => none
  | x :: xs => some (xs.foldl Nat.min x)

/-- The highest of some numbers. -/
def highest : List Nat → Option Nat
  | [] => none
  | x :: xs => some (xs.foldl Nat.max x)

/-- The entries of a step that name one of some members. -/
def entriesAt (h : Hoop) (ms : List Nat) (k : Nat) : List SeqEntry := h.table.filter fun e => e.step == k && ms.contains e.member

/-- An ON sequence runs. -/
def SeqRun.isOn : SeqRun → Bool
  | .on _ _ _ => true
  | _ => false

/-- A hoop's sequence written. -/
def setRun (s : State) (h : Nat) (r : SeqRun) : State :=
  match hoopOf s h with
  | some x => setHoop s h { x with seq := r }
  | none => s

/-- An abort cause of a hoop's ON sequence noted until the tick's causes are weighed (R58). -/
def noteCause (s : State) (h : Nat) (c : Nat × Nat × Nat) : State :=
  match hoopOf s h with
  | some x => setHoop s h { x with causes := x.causes ++ [c] }
  | none => s

/-- The sequence of a hoop. -/
def runOf (s : State) (h : Nat) : SeqRun := match hoopOf s h with | some x => x.seq | none => .idle

/-- An ON sequence is ended by a UNIT_OFF to a unit: one cause of the tick among those that are weighed at its end (R58). -/
def stopOn (s : State) (h by_ : Nat) : State :=
  match hoopOf s h with
  | some x => if x.seq.isOn then setHoop s h { x with ending := some x.seq, causes := x.causes ++ [(3, stState, by_)] } else s
  | none => s

/-- An ON sequence ends early (R58): SEQ_ABORT, and its UNIT_ON completes with the status and the unit named. -/
def endOn (s : State) (h status unit : Nat) : State :=
  let fs := s.link.flights.filter fun f => f.phase == .sequence h && f.op == .unitOn
  fs.foldl (fun s f => doneWith s f status (w32 (unit % 256))) (raiseP s h evSeqAbort (w32 unit) (w32 status) 0)

/-- Members started so far by an ON sequence. -/
def startedOf : SeqRun → List Nat
  | .on _ _ st => st.map (·.1)
  | _ => []

/-- A full OFF sequence of the hoop runs already. -/
def fullOff (h : Hoop) : Bool := match h.seq with | .off ms _ _ => ms.length == h.members.length | _ => false

/-- The OFF sequence of a unit as by UNIT_OFF to `by_` (R57, R58): over the members given, or over all of them; leaves and parallel hoops are simply
turned off. -/
def offRun : Nat → Nat → Nat → Option (List Nat) → State → State
  | 0, _, _, _, s => s
  | n + 1, by_, u, only, s =>
    match hoopOf s u with
    | none => unitOffLeaf u s
    | some h =>
      if h.parallel then unitOffLeaf h.slot s
      else if fullOff h then s
      else
        let s := if only.isNone then stopOn s u by_ else s
        let ms := only.getD h.members
        match highest (stepsFor h ms) with
        | none => setRun s u .idle
        | some k =>
          let s := setRun s u (.off ms (highest ((stepsFor h ms).filter (· < k))) none)
          (entriesAt h ms k).foldl (fun s e => offRun n by_ e.member none s) s

/-- The depth to which hoops may nest. -/
abbrev depth : Nat := 128

/-- A member has its PG as its step needs it (R55, R56). -/
def memberPg (s : State) (m : Nat) : Bool := (unitAgg s m).1 == .retired || (!seqActive s m && unitPg s m)

/-- Why a started member of the present step aborts its sequence: places in the table of R58, status, member. The timeout counts in the tick in which it ends, of a
member that has not otherwise come to its end. -/
def memberCauses (s : State) (e : SeqEntry) (since : Nat) (nested : Bool) : List (Nat × Nat × Nat) :=
  let st := (unitAgg s e.member).1
  let ended := (vleaf s (evalUnit s e.member)).ended
  let t := wholeTicks s (e.timeout * 1000)
  let gone :=
    if kindOf s e.member = .group then
      (if !nested && !(runOf s e.member).isOn && ((maskOf s e.member).any fun m => !(leafOf s m).st.active && (leafOf s m).st != .retired) then
        [(4, stState, e.member)] else [])
    else if st.active then []
    else [if ended = stPreflight then (0, stPreflight, e.member) else if ended = stSeat then (1, stSeat, e.member) else (4, stState, e.member)]
  if st = .retired then []
  else gone ++ (if e.pgReq && !memberPg s e.member && decide (t ≤ since) && (gone.isEmpty || decide (since < t + tickUs s)) then
    [(2, stState, e.member)] else [])

/-- The abort causes of an ON sequence of a hoop in the tick in progress (R58): those noted, and those of the members its step waits for. -/
def abortCauses (s : State) (h : Hoop) (run : SeqRun) : List (Nat × Nat × Nat) :=
  match run with
  | .on k _ st =>
    h.causes ++ (entriesAt h h.members k).flatMap fun e =>
      match st.find? fun p => p.1 == e.member with
      | some p => memberCauses s e p.2 (h.causes.any fun c => c.1 == 6 && c.2.2 == e.member)
      | none => []
  | _ => h.causes

/-- The cause that stands highest in the table of R58. -/
def firstCause : List (Nat × Nat × Nat) → Option (Nat × Nat × Nat)
  | [] => none
  | x :: xs => some (xs.foldl (fun m c => if c.1 < m.1 then c else m) x)

/-- The abort of a hoop's ON sequence is a cause for its parent, whose step waits for the hoop (R58). -/
def noteNested (s : State) (h status : Nat) : State :=
  match (hoopOf s h).bind fun x => (hoopOf s x.parent).map fun p => (x.parent, p) with
  | some (q, p) =>
    match p.ending.getD p.seq with
    | .on k _ st => if ((entriesAt p p.members k).map (·.member)).contains h ∧ (st.map (·.1)).contains h then noteCause s q (6, status, h) else s
    | _ => s
  | none => s

/-- The causes of a tick against a hoop's ON sequence are weighed (R58): by the highest it ends, and its OFF sequence over the members started begins, unless a
UNIT_OFF has begun one already. -/
def weigh (h : Nat) (s : State) : State :=
  match hoopOf s h with
  | none => s
  | some x =>
    let run := x.ending.getD x.seq
    let s1 := setHoop s h { x with causes := [], ending := none }
    if !run.isOn then s1
    else match firstCause (abortCauses s x run) with
      | none => s1
      | some c =>
        let s2 := noteNested (endOn s1 h c.2.1 c.2.2) h c.2.1
        if x.ending.isSome then s2 else offRun depth h h (some (startedOf run)) (setRun s2 h .idle)

/-- The hoops formed. -/
def hoopNums (s : State) : List Nat := s.press.hoops.map (·.1)

/-- A hoop put before those it lies deeper than. -/
def insertDeep (s : State) (h : Nat) : List Nat → List Nat
  | [] => [h]
  | x :: xs => if (ancestors s depth x).length < (ancestors s depth h).length then h :: x :: xs else x :: insertDeep s h xs

/-- The hoops formed, each before the hoop it is a member of. -/
def hoopsUp (s : State) : List Nat := (hoopNums s).foldl (fun l h => insertDeep s h l) []

/-- The entries of an ON sequence that are due: of its step, not started, with their DELAY passed (R55); a later step's members never start in the tick in
which the step before completed. -/
def dueEntries (s : State) (h : Hoop) (k us : Nat) (st : List (Nat × Nat)) : List SeqEntry :=
  if lowest (stepsFor h h.members) = some k ∨ 0 < us then
    (entriesAt h h.members k).filter fun e => !(st.map (·.1)).contains e.member && decide (wholeTicks s (e.delay * 100) ≤ us)
  else []

/-- A member noted as started. -/
def noteStarted (s : State) (h m : Nat) : State :=
  match runOf s h with
  | .on k us st => setRun s h (.on k us (st ++ [(m, 0)]))
  | _ => s

/-- The members of an ON sequence that are due are started (R55, R56); one that UNIT_ON would not start is a cause for its abort (R58). -/
def startDue : Nat → Nat → State → State
  | 0, _, s => s
  | n + 1, h, s =>
    match hoopOf s h with
    | none => s
    | some x =>
      match x.seq with
      | .on k us st =>
        (dueEntries s x k us st).foldl (fun s e =>
          if (runOf s h).isOn then
            let s := noteStarted s h e.member
            match hoopOf s e.member with
            | some y =>
              if (unitAgg s e.member).1 = .retired then s
              else if y.parallel then
                let r := startUnit y.slot s
                match r.2 with
                | some status => noteCause r.1 h (5, status, e.member)
                | none => r.1
              else if y.seq.isOn then s
              else
                match lowest (stepsFor y y.members) with
                | some k0 => startDue n e.member (setRun s e.member (.on k0 0 []))
                | none => s
            | none =>
              if (leafOf s e.member).st = .retired then s
              else
                let r := startUnit e.member s
                match r.2 with
                | some status => noteCause r.1 h (5, status, e.member)
                | none => r.1
          else s) s
      | _ => s

/-- UNIT_ON of a group hoop: its ON sequence begins (R55). -/
def beginOn (h : Nat) (s : State) : State :=
  match hoopOf s h with
  | some x =>
    match lowest (stepsFor x x.members) with
    | some k => startDue depth h (setRun s h (.on k 0 []))
    | none => s
  | none => s

/-- SEQUENCE_STEP (R55): members whose DELAY has passed are started. -/
def sequenceStepOp (h : Nat) (s : State) : State := startDue depth h s

/-- SEQ_ABORT (R58). -/
def seqAbortOp (h : Nat) (s : State) : State := weigh h s

/-- The step of an ON sequence is complete (R55). -/
def stepComplete (s : State) (h : Hoop) (k : Nat) (st : List (Nat × Nat)) : Bool :=
  (entriesAt h h.members k).all fun e => (st.map (·.1)).contains e.member && (!e.pgReq || memberPg s e.member)

/-- A member of an OFF sequence has reached OFF, COOL, LOCK or RETIRED (R57). -/
def memberEnded (s : State) (m : Nat) : Bool :=
  !(unitAgg s m).1.active && !seqActive s m

/-- The ends of steps and sequences, found after step 6 of a tick (R55, R57). -/
def seqAdvance (s : State) (h : Nat) : State :=
  match hoopOf s h with
  | none => s
  | some x =>
    match x.seq with
    | .idle => s
    | .on k _ st =>
      if stepComplete s x k st then
        match lowest ((stepsFor x x.members).filter (k < ·)) with
        | some k1 => setRun s h (.on k1 0 st)
        | none => setRun s h .idle
      else s
    | .off ms nxt us =>
      let above := x.table.filter fun e => ms.contains e.member && (match nxt with | some k => decide (k < e.step) | none => true)
      if above.all fun e => memberEnded s e.member then
        match nxt, us with
        | none, _ => setRun s h .idle
        | some k, none => setRun s h (.off ms (some k) (some 0))
        | _, _ => s
      else s

/-- OFF_SEQUENCE_STEP (R57): once the gap has passed, the next lower step is turned off. -/
def offSequenceStepOp (h : Nat) (s : State) : State :=
  match hoopOf s h with
  | none => s
  | some x =>
    match x.seq with
    | .off ms (some k) (some us) =>
      let up := lowest ((stepsFor x ms).filter (k < ·))
      let gap := (entriesAt x ms (up.getD 0)).foldl (fun g e => Nat.max g e.delay) 0
      if 0 < us ∧ wholeTicks s (gap * 100) ≤ us then
        let s := setRun s h (.off ms (highest ((stepsFor x ms).filter (· < k))) none)
        (entriesAt x ms k).foldl (fun s e => offRun depth h e.member none s) s
      else s
    | _ => s

/-- The time of a hoop's sequence over a tick. -/
def seqTime (s : State) (h : Nat) : State :=
  let us := tickUs s
  match runOf s h with
  | .idle => s
  | .on k t st => setRun s h (.on k (t + us) (st.map fun p => (p.1, p.2 + us)))
  | .off ms nxt t => setRun s h (.off ms nxt (t.map (· + us)))

end Sys2Proof.Machine
end

