-- ==== Sys2Proof/Machine/UnitCommands.lean ====
section
/-!
DEFINITION. Machine/UnitCommands.lean: the commands that act on units (R39 to R41, R188 to R192, R348 to R355).
-/

namespace Sys2Proof.Machine

/-! ## Targets -/

/-- The leaves a command addressed to a unit reaches, each by its protection slot (R46, R60). -/
def targets (s : State) (u : Nat) : List Nat := slotsOf s (maskOf s u)

/-- The targets that are not RETIRED (R60). -/
def liveTargets (s : State) (u : Nat) : List Nat := (targets s u).filter fun e => (vleaf s e).st != .retired

/-- A hoop's number and those of the hoops inside it; ROOT stands above every hoop (R43). -/
def hoopAndBelow (s : State) (u : Nat) : List Nat := if u = 255 then s.press.hoops.map (·.1) else u :: hoopsUnder s u

/-- A sequence runs in a hoop, an ancestor or a descendant (R62). -/
def sequenceNear (s : State) (u : Nat) : Bool := (hoopAndBelow s u ++ ancestors s depth u).any fun h => seqActive s h

/-- A group hoop or ROOT. -/
def isGroup (s : State) (u : Nat) : Bool := kindOf s u == .group || kindOf s u == .root

/-- A command waits for a tick in which its leaves are free, or counts against them (R341). -/
def whenFree (s : State) (f : Flight) (mask : List Nat) (act : State → State) : State :=
  if servedNow s mask then setPhase s f.id .deferred else act (serve s mask)

/-! ## UNIT_ON, UNIT_OFF (R39, R40, R55, R57, R59, R138, R348) -/

/-- UNIT_ON at the Press. -/
def runUnitOn (f : Flight) (s : State) : State :=
  let u := handleUnit f.sub.handle
  if u = 255 then done s f stUnsupported
  else whenFree s f (maskOf s u) fun s =>
    if isGroup s u then
      if sequenceNear s u then done s f stBusy else beginOn u (setPhase s f.id (.sequence u))
    else
      let e := evalUnit s u
      if (vleaf s e).st.active then applied s f stOk
      else
        let r := startUnit e s
        match r.2 with
        | some st => applied r.1 f st
        | none => setPhase r.1 f.id (.attempt u)

/-- Every sequence in a hoop or below it ends (R58, R59). -/
def endSequences (u : Nat) (s : State) : State := (hoopAndBelow s u).foldl (fun s h => setRun (stopOn s h u) h .idle) s

/-- UNIT_OFF addressed to a feed ends its feed loss (R204). -/
def endLoss (u : Nat) (s : State) : State := if leafKind u = .feed then recoverFeed s u else s

/-- UNIT_OFF at the Press. -/
def runUnitOff (f : Flight) (s : State) : State :=
  let u := handleUnit f.sub.handle
  whenFree s f (maskOf s u) fun s =>
    if isGroup s u then
      if u = 255 ∨ flag f.sub 2 then
        if (liveTargets s u).isEmpty then applied s f stState
        else applied ((liveTargets s u).foldl (fun s e => unitOffLeaf e s) (endSequences u s)) f stOk
      else
        let s := (hoopsUnder s u).foldl (fun s h =>
          if (runOf s h).isOn then
            let st := startedOf (runOf s h)
            offRun depth u h (some st) (setRun (stopOn s h u) h .idle)
          else s) s
        offRun depth u u none (setPhase s f.id (.sequence u))
    else applied (endLoss u (unitOffLeaf (evalUnit s u) s)) f stOk

/-! ## UNIT_PWM (R92, R98, R99, R194, R351) -/

/-- A slot's period in the gate-charge load of R99, none where its generator does not run PWM: that of a setting, of its own or, for a slot in `set`, of the new one,
which a unit in ON or LIMIT switches to at its next period start, whatever the duty (log entry 36); or the one it still runs. -/
def loadPeriod (s : State) (c : Nat) (set : List Nat) (period : Nat) : Option Nat :=
  let l := vleaf s c
  if slotOf s c ≠ c ∨ ¬ (l.st = .on ∨ l.st = .limit) then none
  else if set.contains c then some period
  else if l.pwm.set then some l.pwm.period
  else if l.pwm.running then some l.pwm.curPeriod
  else none

/-- Gate-charge load of a bank in nA × 10⁻³ (so that 8 mA is 8,000), with the given slots set to a period (R99): Q_g in nC, P in 2.5 ns. -/
def gateLoad (s : State) (bank : Nat) (set : List Nat) (period : Nat) : Rat :=
  (List.range 16).foldl (fun acc i =>
    let c := 16 * bank + i
    let g := match loadPeriod s c set period with
      | some p => if p = 0 then 0 else ((groupOf s c).foldl (fun q m => q + ((leafOf s m).env.qg : Rat)) 0) * 400000 / (p : Rat)
      | none => 0
    acc + g + (if (leafOf s c).st.conducting then 20 else 0)) 0

/-- UNIT_PWM at the Press. -/
def runUnitPwm (f : Flight) (s : State) : State :=
  let u := handleUnit f.sub.handle
  let dc := flag f.sub 2
  let period := arg f.sub 28 4
  let duty := arg f.sub 32 2
  let ts := targets s u
  if ts.any fun e => leafKind e != .channel then done s f stUnsupported
  else if ¬ dc ∧ (period < 16000 ∨ 8000000 < period ∨ [0, 1, 2, 3].any fun b => decide (8000 < gateLoad s b (ts.filter fun e => bankOf e == b) period) && ts.any fun e => bankOf e == b) then
    done s f stRange
  else if (liveTargets s u).isEmpty then done s f stState
  else whenFree s f (maskOf s u) fun s =>
    let s := (liveTargets s u).foldl (fun s e =>
      let s := onLeaf s e fun l =>
        { l with pwm := { l.pwm with set := !dc, period := if dc then l.pwm.period else period, duty := if dc then l.pwm.duty else duty,
                                     startAt := if l.pwm.running then l.pwm.startAt else s.time.gtc } }
      restagger s (bankOf e)) s
    applied s f stOk

/-! ## UNIT_RESET_LOCK (R41, R131, R183, R348, R349) -/

/-- A DAMAGE lock stands on a leaf. -/
def damageLocked (s : State) (e : Nat) : Bool := (vleaf s e).st == .lock && (vleaf s e).sub == 1

/-- A lock cleared (R41): a DAMAGE lock's verdicts with it; RETRIES_USED restarts (R131). -/
def clearLock (e : Nat) (s : State) : State :=
  let s := if damageLocked s e ∧ leafKind e = .channel then (liveOf s e).foldl clearVerdict s else s
  onV s e fun l => { l with st := .off, sub := 0, retries := 0, retryCancelled := false }

/-- UNIT_RESET_LOCK at the Press. -/
def runUnitResetLock (f : Flight) (s : State) : State :=
  let u := handleUnit f.sub.handle
  let locked := (targets s u).filter fun e => (vleaf s e).st == .lock
  if locked.isEmpty then done s f stState
  else if locked.any fun e => damageLocked s e && !(flag f.sub 2 && (leafOf s e).env.damageOverride) then done s f stEnvelope
  else whenFree s f (maskOf s u) fun s => applied (locked.foldl (fun s e => clearLock e s) s) f stOk

/-! ## UNIT_RETIRE, UNIT_RESTORE (R188 to R192, R350) -/

/-- An edit that waits for its swap involves a hoop (R188). -/
def Edit.involves (h : Nat) : Edit → Bool
  | .form n t => n == h || t.any fun e => e.member == h
  | .edit n t => n == h || t.any fun e => e.member == h
  | .dissolve n => n == h
  | .retire u => u == h
  | .restore u => u == h
  | .retireMember n _ => n == h
  | .restoreMember n _ => n == h

/-- A change prepared for its swap, completed with the command (R61, R62). -/
def prepare (f : Flight) (e : Edit) (handles : List Word32) (s : State) : State :=
  setPhase (s.onPress fun p => { p with edits := p.edits ++ [{ flight := f.id, edit := e, handles := handles }] }) f.id .swap

/-- An edit that waits names a hoop, or dissolves the hoop it is a member of (R188). -/
def editTouches (s : State) (h : Nat) (e : PendingEdit) : Bool :=
  e.edit.involves h || (match e.edit with | .dissolve n => (hoopOf s n).elim false fun x => x.members.contains h | _ => false)

/-- Why a member's retirement is refused (R188). -/
def retireMemberRefusal (s : State) (m : Nat) : Option Nat :=
  match parallelOf s m with
  | none => some stState
  | some (n, h) =>
    let l := leafOf s m
    if l.st = .retired ∨ (liveOf s m).length ≤ 1 ∨ l.diag.verdict = 1 then some stState
    else if (vleaf s h.slot).st = .arm ∨ (vleaf s h.slot).st = .ramp ∨ s.press.edits.any (editTouches s n) then some stBusy
    else none

/-- UNIT_RETIRE (R188, R190, R350): accepted, it waits for the swap, before which Rind writes its lock record. -/
def runUnitRetire (f : Flight) (s : State) : State :=
  let u := handleUnit f.sub.handle
  if flag f.sub 2 then
    if kindOf s u ≠ .channel then done s f stUnsupported
    else match retireMemberRefusal s u with
      | some st => done s f st
      | none =>
        prepare f (.retireMember ((parallelOf s u).elim 0 (·.1)) u) [] s
  else if isGroup s u then done s f stUnsupported
  else
    let st := (vleaf s (evalUnit s u)).st
    if st ≠ .off ∧ st ≠ .lock then done s f stState else prepare f (.retire u) [] s

/-- A leaf's lock record in force is RETIRED_DAMAGED (R192, R350). -/
def retiredDamaged (s : State) (m : Nat) : Bool :=
  match latestLock s.nvm m with
  | some r => r.kind == .retiredDamaged
  | none => false

/-- UNIT_RESTORE (R192, R350): Rind reads the record in force before it writes any; it writes CLEARED before the swap. -/
def runUnitRestore (f : Flight) (s : State) : State :=
  let u := handleUnit f.sub.handle
  let permitted (e : Nat) : Bool := flag f.sub 3 && (leafOf s (slotOf s e)).env.damageOverride
  if flag f.sub 2 then
    if kindOf s u ≠ .channel then done s f stUnsupported
    else match parallelOf s u with
      | none => done s f stState
      | some (n, h) =>
        if (leafOf s u).st ≠ .retired ∨ (vleaf s h.slot).st ≠ .off then done s f stState
        else if retiredDamaged s u ∧ ¬ permitted u then done s f stEnvelope
        else prepare f (.restoreMember n u) [] s
  else if isGroup s u then done s f stUnsupported
  else
    let e := evalUnit s u
    let ms := groupOf s e
    if (vleaf s e).st ≠ .retired then done s f stState
    else if ms.any (retiredDamaged s) ∧ ¬ permitted e then done s f stEnvelope
    else prepare f (.restore u) [] s

/-! ## Buffers -/

/-- Bytes the device writes to host memory, little-endian as they stand (R5). -/
def hostWrite (s : State) (addr : Nat) (bs : List Byte) : State := s.onLink fun l => { l with hostMem := Mem.write l.hostMem addr bs }

/-! ### Translations (R297) -/

/-- The unit in which a translation of `bytes` is cached: 2 MiB where it is as large, else 4 KiB (R297). -/
def atcUnit (bytes : Nat) : Nat := if 2097152 ≤ bytes then 2097152 else 4096

/-- A translation cached as the entry that covers the address in use: at most 256 entries, the oldest giving way (R297). -/
def cacheTranslation (s : State) (addr bytes : Nat) : State :=
  s.onLink fun l => { l with atc := lastN 256 (l.atc ++ [(addr / atcUnit bytes * atcUnit bytes, atcUnit bytes)]) }

/-- A page is translated, or needs no translation: ATS is off or its page is in the translation cache (R297). -/
def translated (s : State) (addr : Nat) : Bool := !s.link.ats || s.link.atc.any fun p => decide (p.1 ≤ addr ∧ addr < p.1 + p.2)

/-- An access to pinned memory, which is present: its page is translated, and the translation, whose size is a free choice, cached (R297, R300, log entry 5). -/
def useAddr (addr : Nat) (s : State) : State :=
  if translated s addr then s else let d := draw s; cacheTranslation d.2 addr (if d.1 % 2 = 0 then 4096 else 2097152)

/-- An access to a stretch of pinned memory, page by page. -/
def useRange (addr len : Nat) (s : State) : State :=
  (List.range ((addr % 4096 + len + 4095) / 4096)).foldl (fun s i => useAddr (addr / 4096 * 4096 + 4096 * i) s) s

/-- A command lets the bulk tiles go that its buffer has. -/
def freeBulk (f : Flight) (s : State) : State :=
  let rs := (flightOf s f.id).elim [] (·.tiles)
  if rs.isEmpty then s
  else (freeRefs s 69 rs).onLink fun l => { l with flights := l.flights.map fun g => if g.id = f.id then { g with tiles := [] } else g }

/-- A command's data passed through the bulk tile it has taken, filled again and again, to its host buffer (R19, R20, R291). -/
def bufferWrite (s : State) (f : Flight) (bs : List Byte) : State :=
  hostWrite (useRange f.sub.bufAddr bs.length (passBytes 69 bs (freeBulk f s))) f.sub.bufAddr bs

/-- A command's data written to its buffer, with the number of bytes in RESULT; RANGE and the number needed when the buffer is too small (R338). -/
def writeBuffer (s : State) (f : Flight) (bs : List Byte) : State :=
  if f.sub.bufLen < bs.length then doneWith s f stRange (w32 bs.length)
  else doneWith (bufferWrite s f bs) f stOk (w32 bs.length)

/-! ## UNIT_CONFIG_READ (R352, R353) -/

/-- FLAGS of a UNITS record (R162). -/
def envFlags (e : UnitRec) : Nat :=
  ofB e.clamp + 2 * ofB e.parkKeep + 4 * ofB e.busCtrl + 8 * ofB e.damageOverride + 16 * ofB e.bootOn + 32 * ofB e.xtripOff + 64 * ofB e.limpOn

/-- The envelope fields by ID from 0x0800 on (R352). -/
def envFields (e : UnitRec) : List Word32 :=
  [w32 e.scTh, w32 e.ilimMax, w32 e.pRamp, w32 e.faultTimeMax, w32 e.retryMax, w32 e.eFetMax, w32 e.ltBound, w32i e.tWireMax, w32 e.wireMargin,
   w32i e.tjMax, w32 e.escalation, w32 (envFlags e), w32 e.iRated]

/-- A configuration entry (R353). -/
def entryBytes (id : Nat) (v : Word32) : List Byte := toLe id 2 ++ [0, 0] ++ toLe v.toNat 4

/-- The envelope a leaf or parallel hoop reads, by its slot; a member reads its own FET-related values, P_RAMP, E_FET_MAX and TJ_MAX, with the hoop's others
(R353; DEDUCED, log entry 35). -/
def readEnv (s : State) (u : Nat) : UnitRec :=
  let e := evalUnit s u
  let own := (leafOf s e).env
  { (leafOf s (slotOf s e)).env with tjMax := own.tjMax, pRamp := own.pRamp, eFetMax := own.eFetMax }

/-- The entries of a leaf or parallel hoop in ascending ID (R353). -/
def leafEntries (s : State) (u : Nat) (k : Kind) : List (List Byte) :=
  let e := evalUnit s u
  let env := readEnv s u
  (fieldTable.filter (carries k)).map (fun f => entryBytes f.id (w32i (softI s e f.id)))
    ++ ((List.range 13).zip (envFields env)).map fun p => entryBytes (0x0800 + p.1) p.2

/-- A sequence table entry (R54). -/
def seqEntryBytes (e : SeqEntry) : List Byte :=
  [BitVec.ofNat 8 e.member, BitVec.ofNat 8 e.step, BitVec.ofNat 8 (ofB e.pgReq), 0] ++ toLe e.delay 2 ++ toLe e.timeout 2

/-- The cell a readback tap is connected to (R282). -/
def tapOf (s : State) (k : Nat) : Nat := Tbl.get 0xFFFF s.cmp.taps k

/-- The entries of ROOT: taps, window monitor records, output words (R280, R353). -/
def rootEntries (s : State) : List Byte :=
  ((List.range 6).flatMap fun k => entryBytes (0x0600 + k) (w32 (tapOf s k)))
    ++ ((List.range 32).flatMap fun k => encodeWm k (wmOf s k))
    ++ ((List.range 32).flatMap fun k => toLe (ofB (cellRead s (276 + 2 * k)) + 2 * ofB (cellRead s (277 + 2 * k))) 4)

/-- KIND of a configuration block (R353). -/
def Kind.code : Kind → Nat
  | .channel => 0 | .feed => 1 | .regulator => 2 | .hold => 3 | .parallel => 4 | .group => 5 | .root => 6

/-- The configuration block of a unit (R353). -/
def configBlock (s : State) (u : Nat) : List Byte :=
  let k := kindOf s u
  let body := match k with
    | .root => rootEntries s
    | .group => (hoopOf s u).elim [] fun h => h.table.flatMap seqEntryBytes
    | _ => (leafEntries s u k).flatten
  toLe (handleOf s u).toNat 4 ++ [BitVec.ofNat 8 k.code, 0] ++ toLe (body.length / 8) 2 ++ toLe (stateWord s u).toNat 4
    ++ toLe (protWord s u).toNat 4 ++ toLe (thermalWord s u).toNat 4 ++ toLe (diagWord s u).toNat 4 ++ List.replicate 8 0 ++ body

/-- UNIT_CONFIG_READ (R353). -/
def runUnitConfigRead (f : Flight) (s : State) : State := writeBuffer s f (configBlock s (handleUnit f.sub.handle))

/-! ## UNIT_CONFIG_WRITE (R354, R355) -/

/-- The pairs of a UNIT_CONFIG_WRITE: from ARGS, or from the buffer when there are more than four (R354). -/
def configPairs (sub : Submission) : List (Nat × Word32) :=
  let n := arg sub 28 1
  let bs := if n ≤ 4 then slice sub.args 4 32 else sub.data
  (List.range n).map fun i => (leAt bs (8 * i) 2, w32 (leAt bs (8 * i + 4) 4))

/-- The value a field will have once every pair is written: the last one named, or the value in force (R355). -/
def finalValue (s : State) (u id : Nat) (ps : List (Nat × Word32)) : Int :=
  match (ps.filter fun p => p.1 == id).getLast? with
  | some p => if id = fIrev then p.2.toInt else p.2.toNat
  | none => softI s u id

/-- What is wrong with a pair for one target, none when it may be written (R271, R352, R355). -/
def pairFault (s : State) (u : Nat) (ps : List (Nat × Word32)) (p : Nat × Word32) : Option Nat :=
  match fieldSpec p.1 with
  | none => if 0x0600 ≤ p.1 ∧ p.1 ≤ 0x0605 then some stUnsupported else some stRange
  | some f =>
    let v : Int := if p.1 = fIrev then p.2.toInt else p.2.toNat
    if !carries (leafKind u) f then some stUnsupported
    else if !f.admits v then some stRange
    else if (p.1 = fBlank ∨ p.1 = fPwmMinOn) ∧ finalValue s u fPwmMinOn ps ≤ finalValue s u fBlank ps then some stRange
    else match fieldBound s u p.1 with
      | some (lo, hi) => if v < lo ∨ hi < v then some stEnvelope else none
      | none => none

/-- An envelope ID (R352). -/
def isEnvelopeId (id : Nat) : Bool := decide (0x0800 ≤ id ∧ id ≤ 0x080C)

/-- What is wrong with a pair for the addressed unit (R355). -/
def pairStatus (s : State) (u : Nat) (ts : List Nat) (ps : List (Nat × Word32)) (p : Nat × Word32) : Option Nat :=
  if isEnvelopeId p.1 then some stEnvelope
  else if u = 255 ∧ 0x0600 ≤ p.1 ∧ p.1 ≤ 0x0605 then (if p.2.toNat ≤ 343 ∨ p.2.toNat = 0xFFFF then none else some stRange)
  else (ts.filterMap fun e => pairFault s e ps p).head?

/-- The measurement gain of a current node changed (R234, R238): its conversions that start within 4 µs after the change are Settling; with its sample of this
tick already taken, the fourth of those starts exactly 4 µs after that sample. -/
def setGain (s : State) (n g : Nat) : State :=
  onNode s n fun d =>
    if d.gain = g then { d with low := 0 }
    else { d with gain := g, low := 0, settleUntil := s.time.gtc + 1600 + ofB (d.at_ == s.time.gtc), pairs := 0, pairSum := 0 }

/-- Plausibility stops: no node has a reading of the other bank any more (R241, R242, R248). -/
def endDual (s : State) : State := s.onMeas fun m => { m with nodes := m.nodes.map fun p => (p.1, { p.2 with dual := none }) }

/-- A readback tap connected: its bank converts it again after 2 µs (R282). -/
def setTap (s : State) (k c : Nat) : State :=
  onNode (s.onCmp fun m => { m with taps := Tbl.put m.taps k c }) (234 + k) fun d => { d with settleUntil := s.time.gtc + 800 }

/-- One pair written to one target. -/
def writePair (s : State) (e : Nat) (p : Nat × Word32) : State :=
  let s := setSoft s e p.1 p.2
  if p.1 = fMeasGain ∧ p.2.toNat < 4 then (groupOf s e).foldl (fun s m => setGain s (iNode m) p.2.toNat) s else s

/-- What the Press does with the values of a unit that have changed: codes, phases, a fault time already reached (R97, R113, R268). -/
def applyValues (s : State) (e : Nat) : State :=
  let s := refreshCodes s e
  faultTimerExpiryOp e (if leafKind e = .channel then restagger s (bankOf e) else s)

/-- Every pair written to every target. -/
def writePairs (s : State) (u : Nat) (ts : List Nat) (ps : List (Nat × Word32)) : State :=
  ps.foldl (fun s p =>
    if u = 255 ∧ 0x0600 ≤ p.1 ∧ p.1 ≤ 0x0605 then setTap s (p.1 - 0x0600) p.2.toNat
    else ts.foldl (fun s e => writePair s e p) s) s

/-- The first pair that fails, with its index: under the checks of R355, or because a threshold that it sets has no DAC code (R266). -/
def firstFault (s : State) (u : Nat) (ts : List Nat) (ps : List (Nat × Word32)) : Option (Nat × Nat) :=
  let bad := ((List.range ps.length).zip ps).findSome? fun x => (pairStatus s u ts ps x.2).map fun st => (st, x.1)
  let good := ps.take (bad.elim ps.length (·.2))
  let out := fun (n : Nat) => let s1 := writePairs s u ts (good.take n); ts.any fun e => !codesInRange s1 e
  if out good.length then (((List.range good.length).find? fun i => out (i + 1)).map fun i => (stRange, i)).orElse fun _ => bad else bad

/-- UNIT_CONFIG_WRITE of pairs at the Press (R355). -/
def writeConfigPairs (f : Flight) (s : State) : State :=
  let u := handleUnit f.sub.handle
  let ps := configPairs f.sub
  let ts := liveTargets s u
  if ps.length < 1 ∨ 64 < ps.length then done s f stRange
  else match firstFault s u (if isGroup s u then ts else targets s u) ps with
    | some (st, i) =>
      let id := (ps.getD i (0, 0)).1
      let s := if isEnvelopeId id then let d := draw s; security d.2 2 d.1 id else s
      doneWith s f st (w32 (id * 65536 + i))
    | none =>
      if u ≠ 255 ∧ isGroup s u ∧ ts.isEmpty then done s f stState
      else whenFree s f (maskOf s u) fun s =>
        let ts := if isGroup s u then ts else targets s u
        applied (ts.foldl applyValues (writePairs s u ts ps)) f stOk

/-- The window monitor records of a UNIT_CONFIG_WRITE with WM (R354). -/
def configMonitors (sub : Submission) : List (Nat × WmRec × Bool) := (List.range (arg sub 28 1)).map fun i => parseWm sub.data (16 * i)

/-- UNIT_CONFIG_WRITE at the Press (R354, R355). -/
def runUnitConfigWrite (f : Flight) (s : State) : State :=
  if flag f.sub 2 then
    let ws := configMonitors f.sub
    if ws.length < 1 ∨ 32 < ws.length then done s f stRange
    else match ((List.range ws.length).zip ws).find? fun x => !wmOk x.2.1 x.2.2.1 with
      | some x => doneWith s f stRange (w32 x.1)
      | none => done (ws.foldl (fun s w => applyWm s w.1 w.2.1 w.2.2) s) f stOk
  else writeConfigPairs f s

end Sys2Proof.Machine
end

