-- ==== Sys2Proof/Machine/HoopCommands.lean ====
section
/-!
DEFINITION. Machine/HoopCommands.lean: forming, editing and dissolving group hoops, and the swap that commits a change of the hoop table (R42 to R49,
R60 to R64, R189 to R192, R356, R357).
-/

namespace Sys2Proof.Machine

/-! ## What a HOOP_FORM or HOOP_EDIT carries (R54, R356) -/

/-- COUNT of a HOOP_FORM or HOOP_EDIT. -/
def hoopCount (sub : Submission) : Nat := arg sub 30 1

/-- The sequence table entries in the buffer (R54). -/
def hoopTable (sub : Submission) : List SeqEntry :=
  (List.range (hoopCount sub)).map fun i =>
    { member := byteAt sub.data (8 * i), step := byteAt sub.data (8 * i + 1), pgReq := bit (byteAt sub.data (8 * i + 2)) 0,
      delay := leAt sub.data (8 * i + 4) 2, timeout := leAt sub.data (8 * i + 6) 2 }

/-- The member handles in the buffer, after the table. -/
def hoopHandles (sub : Submission) : List Word32 :=
  (List.range (hoopCount sub)).map fun i => w32 (leAt sub.data (8 * hoopCount sub + 4 * i) 4)

/-- A list in which nothing stands twice. -/
def distinct : List Nat → Bool
  | [] => true
  | x :: xs => !xs.contains x && distinct xs

/-- The faults of an entry that R54 names. -/
def entryFault (e : SeqEntry) : Bool := decide (31 < e.step) || (e.pgReq && e.timeout == 0) || (!e.pgReq && e.timeout != 0)

/-- The parent of a unit (R36, R43). -/
def parentOf (s : State) (u : Nat) : Nat := if u < 71 then (leafOf s u).parent else match hoopOf s u with | some h => h.parent | none => 255

/-- A unit may be a member of group hoop `own`, 255 for one not yet formed, which will be top-level (R43, R49, R356). -/
def mayJoin (s : State) (own m : Nat) : Bool :=
  m != 255 && m != own && (parallelOf s m).isNone && (parentOf s m == 255 || parentOf s m == own) && !(ancestors s depth own).contains m

/-- The lowest free hoop number (R356). -/
def freeHoop (s : State) : Option Nat := ((List.range 127).map (· + 128)).find? fun n => (hoopOf s n).isNone

/-- The number at which a HOOP_FORM forms its hoop, or the status with which it is refused (R356). -/
def formNumber (s : State) (hoop : Nat) : Except Nat Nat :=
  if hoop = 0 then (match freeHoop s with | some n => .ok n | none => .error stRange)
  else if hoop < 128 ∨ 254 < hoop then .error stRange
  else if (hoopOf s hoop).isSome then .error stState
  else .ok hoop

/-- The checks of R356 in their order: the status of the first that fails, with RESULT where it is the member index. -/
def hoopCheck (s : State) (op : Op) (flags : Byte) (own : Nat) (form : Option Nat) (table : List SeqEntry) (handles : List Word32) :
    Option (Nat × Option Word32) :=
  let ms := table.map (·.member)
  match ((List.range handles.length).zip handles).findSome? fun x => (checkHandle s op flags x.2).map fun st => (st, some (w32 x.1)) with
  | some r => some r
  | none =>
    if (handles.zip ms).any fun x => handleUnit x.1 != x.2 then some (stRange, none)
    else if !(ms.all (mayJoin s own)) || !distinct ms || table.any entryFault then some (stRange, none)
    else match form with
      | some n =>
        (match formNumber s n with
         | .error st => some (st, none)
         | .ok _ => if ms.any fun m => (hoopOf s m).isSome && sequenceNear s m then some (stBusy, none) else none)
      | none => if sequenceNear s own then some (stBusy, none) else none

/-- A command completes with a status and the RESULT given, or that of R344. -/
def refuseWith (f : Flight) (r : Nat × Option Word32) (s : State) : State :=
  match r.2 with
  | some w => doneWith s f r.1 w
  | none => done s f r.1

/-- HOOP_FORM (R44, R356): prepared for its swap. -/
def runHoopForm (f : Flight) (s : State) : State :=
  let kind := arg f.sub 29 1
  let n := arg f.sub 28 1
  if kind = 0 then done s f stEnvelope
  else if kind ≠ 1 ∨ hoopCount f.sub < 1 ∨ 32 < hoopCount f.sub then done s f stRange
  else match hoopCheck s .hoopForm f.sub.flags 255 (some n) (hoopTable f.sub) (hoopHandles f.sub) with
    | some r => refuseWith f r s
    | none => prepare f (.form n (hoopTable f.sub)) (hoopHandles f.sub) s

/-- Why a hoop cannot be edited or dissolved at all (R44, R59, R357), none for a group hoop. -/
def notGroup (s : State) (u : Nat) : Option Nat :=
  match kindOf s u with
  | .group => none
  | .parallel => some stEnvelope
  | _ => some stUnsupported

/-- HOOP_EDIT (R44, R356, R357): prepared for its swap. -/
def runHoopEdit (f : Flight) (s : State) : State :=
  let u := handleUnit f.sub.handle
  match notGroup s u with
  | some st => done s f st
  | none =>
    if hoopCount f.sub < 1 ∨ 32 < hoopCount f.sub then done s f stRange
    else match hoopCheck s .hoopEdit f.sub.flags u none (hoopTable f.sub) (hoopHandles f.sub) with
      | some r => refuseWith f r s
      | none => prepare f (.edit u (hoopTable f.sub)) (hoopHandles f.sub) s

/-- HOOP_DISSOLVE (R357): prepared for its swap. -/
def runHoopDissolve (f : Flight) (s : State) : State :=
  let u := handleUnit f.sub.handle
  match notGroup s u with
  | some st => done s f st
  | none => if sequenceNear s u then done s f stBusy else prepare f (.dissolve u) [] s

/-! ## The hoop table changed (R43, R61, R63, R64) -/

/-- The parent of a unit written. -/
def setParent (s : State) (u p : Nat) : State :=
  if u < 71 then onLeaf s u fun l => { l with parent := p }
  else match hoopOf s u with
    | some h => setHoop s u { h with parent := p }
    | none => s

/-- A group hoop formed at a number (R30, R32, R61). -/
def commitForm (s : State) (n : Nat) (table : List SeqEntry) : State :=
  let ms := table.map (·.member)
  bumpGen (ms.foldl (fun s m => setParent s m n) (setHoop s n { parallel := false, members := ms, table := table })) n

/-- A group hoop's member list and table replaced (R30, R356); members left out become top-level. One that delivers the table that stands changes nothing and
advances no generation. DESIGN CHOICE (log entry 88). -/
def commitEdit (s : State) (n : Nat) (table : List SeqEntry) : State :=
  match hoopOf s n with
  | some h =>
    let ms := table.map (·.member)
    if h.table = table then s
    else
      let s := (h.members.filter fun m => !ms.contains m).foldl (fun s m => setParent s m 255) s
      let s := setHoop s n { h with members := ms, table := table }
      bumpGen (ms.foldl (fun s m => setParent s m n) s) n
  | none => s

/-- A hoop dissolved, with a parent left empty by it (R30, R63). -/
def dissolveHoop : Nat → State → Nat → State
  | 0, s, _ => s
  | fuel + 1, s, n =>
    match hoopOf s n with
    | none => s
    | some h =>
      let s := h.members.foldl (fun s m => setParent s m 255) s
      let s := bumpGen (s.onPress fun p => { p with hoops := Tbl.del p.hoops n }) n
      match hoopOf s h.parent with
      | none => s
      | some q =>
        let left := q.members.filter (· != n)
        if left.isEmpty then dissolveHoop fuel (setHoop s h.parent { q with members := [] }) h.parent
        else bumpGen (setHoop s h.parent { q with members := left, table := q.table.filter fun e => e.member != n }) h.parent

/-! ## Retirement and restoration (R30, R131, R147, R188 to R192, R350) -/

/-- The envelope of a parallel hoop rescaled from the slot channel's profile record for its number of non-retired members (R189). -/
def rescale (s : State) (h : Hoop) : State :=
  let r := match s.fw.profile with | some p => p.units.getD h.slot {} | none => {}
  let n := h.members.length
  let m := (h.members.filter fun x => (leafOf s x).st != .retired).length
  let f (v : Nat) : Nat := if n = 0 then v else v * m / n
  let s := onLeaf s h.slot fun l =>
    { l with env := { r with scTh := f r.scTh, ilimMax := f r.ilimMax, pRamp := f r.pRamp, eFetMax := f r.eFetMax,
                             iRated := Nat.min r.iRated (f r.ilimMax) } }
  refreshCodes (lowerSoft s h.slot) h.slot

/-- A member's wire model restarts from its hoop's T_c and T_i (R147). -/
def leaveWire (hoop own : Ledger) : Ledger := { own with tc := hoop.tc, ti := hoop.ti, i2sum := 0, i2n := 0, wireTicks := 0 }

/-- A unit retired as a whole (R30, R147, R196, R204, R350): every member of a parallel hoop that is not RETIRED yet, with their generations and its own. -/
def commitRetire (s : State) (u : Nat) : State :=
  let e := evalUnit s u
  let hoop := (leafOf s e).led
  let ms := (groupOf s e).filter fun m => (leafOf s m).st != .retired
  let s := if leafKind e = .feed then recoverFeed s e else s
  let s := ms.foldl (fun s m => onLeaf s m fun l =>
    { l with st := .retired, sub := 0, autoMate := false, gate := sinkMode (leafKind m) l.env.clamp true l.gate, gateR := false,
             led := if m = e then l.led else leaveWire hoop l.led }) s
  (if u < 71 then [u] else u :: ms).foldl bumpGen s

/-- A unit restored as a whole (R30, R131, R350). -/
def commitRestore (s : State) (u : Nat) : State :=
  let e := evalUnit s u
  let ms := groupOf s e
  let s := ms.foldl (fun s m => onLeaf s m fun l => { l with st := .off, sub := 0, retries := 0 }) s
  if u < 71 then bumpGen s u
  else (u :: ms).foldl bumpGen (match hoopOf s u with | some h => rescale s h | none => s)

/-- A member of a parallel hoop retired (R147, R173, R189 to R191). -/
def commitRetireMember (s : State) (n m : Nat) : State :=
  match hoopOf s n with
  | none => s
  | some h =>
    let v := vleaf s h.slot
    let wasDamaged := (leafOf s m).diag.damaged
    let s := onLeaf s m fun l =>
      { l with st := .retired, sub := 0, gate := sinkMode .channel true true l.gate, diag := { l.diag with gateOpen := false, gateLast := none },
               led := if m = h.slot then l.led else leaveWire (leafOf s h.slot).led l.led }
    let s := rescale s h
    let live := liveOf s h.slot
    let s := if v.st = .lock ∧ v.sub = 1 ∧ wasDamaged ∧ ¬ (live.any fun x => (leafOf s x).diag.damaged)
        ∧ ¬ (h.members.any fun x => (leafOf s x).diag.uncontrollable) then
        live.foldl (fun s x => writeLock s x .cleared 0 0) (onV s h.slot fun l => { l with st := .off, sub := 0 })
      else s
    let s := bumpGen (bumpGen s m) n
    raiseP s n evMemberRetired (handleOf s n) (handleOf s m) 0

/-- A member of a parallel hoop restored (R131, R189, R192). -/
def commitRestoreMember (s : State) (n m : Nat) : State :=
  match hoopOf s n with
  | none => s
  | some h =>
    let s := onLeaf s m fun l => { shareLeaf (vleaf s h.slot) l with st := .off, sub := 0, gate := .holdOff }
    let s := rescale s h
    let s := h.members.foldl (fun s x => onLeaf s x fun l => { l with retries := 0 }) s
    bumpGen (bumpGen s m) n

/-! ## The swap (R61, R62, R190) -/

/-- Why an edit that waited can no longer be made (R62, R356, R357), none when it can. -/
def swapRefusal (s : State) (f : Flight) (e : PendingEdit) : Option (Nat × Option Word32) :=
  match checkHandle s f.op f.sub.flags f.sub.handle with
  | some st => some (st, none)
  | none =>
    let u := handleUnit f.sub.handle
    match e.edit with
    | .form n t => hoopCheck s .hoopForm f.sub.flags 255 (some n) t e.handles
    | .edit n t => hoopCheck s .hoopEdit f.sub.flags n none t e.handles
    | .dissolve n => if sequenceNear s n then some (stBusy, none) else none
    | .retire n => let st := (vleaf s (evalUnit s n)).st; if st = .off ∨ st = .lock then none else some (stState, none)
    | .restore n => if (vleaf s (evalUnit s n)).st = .retired then none else some (stState, none)
    | .retireMember _ m => if (leafOf s m).st = .retired ∨ (liveOf s m).length ≤ 1 then some (stState, none) else none
    | .restoreMember _ m => if (leafOf s m).st = .retired ∧ (vleaf s (slotOf s u)).st = .off then none else some (stState, none)

/-- An edit committed, and its command's completion (R61, R350, R356, R357). -/
def commitEditFor (f : Flight) (e : Edit) (s : State) : State :=
  match e with
  | .form n t =>
    match formNumber s n with
    | .ok k => let s := commitForm s k t; finish s f stOk (handleOf s k) (handleOf s k)
    | .error st => done s f st
  | .edit n t => let s := commitEdit s n t; finish s f stOk (handleOf s n) (handleOf s n)
  | .dissolve n => doneWith (dissolveHoop depth s n) f stOk f.sub.handle
  | .retire u => applied (commitRetire s u) f stOk
  | .restore u => applied (commitRestore s u) f stOk
  | .retireMember n m => let s := commitRetireMember s n m; finish s f stOk (handleOf s m) (handleOf s n)
  | .restoreMember n m => let s := commitRestoreMember s n m; finish s f stOk (handleOf s m) (handleOf s n)

/-- The leaves that a retirement or restoration acts on, each in its own tick (R341, R348). -/
def Edit.mask (s : State) : Edit → List Nat
  | .retire u | .restore u => maskOf s u
  | .retireMember _ m | .restoreMember _ m => [m]
  | _ => []

/-- The lock records that Rind writes before the swap of a retirement or restoration, with the verdicts a restoration clears (R190, R192, R350). -/
def recordEdit (s : State) : Edit → State
  | .retire u =>
    let e := evalUnit s u
    let k : LockKind := if damageLocked s e then .retiredDamaged else .retired
    (liveOf s e).foldl (fun s m => writeLock s m k (leafOf s m).diag.verdict (leafOf s m).diag.esc) s
  | .retireMember _ m => let d := (leafOf s m).diag; writeLock s m (if d.verdict ≠ 0 then .retiredDamaged else .retired) d.verdict d.esc
  | .restore u => (groupOf s (evalUnit s u)).foldl clearVerdict s
  | .restoreMember _ m => clearVerdict s m
  | _ => s

/-- The swap of a prepared edit waits: for leaves already served in the tick (R341), or for Rind, which has its record to write (R190). -/
def swapWaits (s : State) (e : Edit) : Bool := !(e.mask s).isEmpty && (servedNow s (e.mask s) || !rindWrites s)

/-- HOOP_TABLE_SWAP: the first prepared edit commits, or is refused by its second check and then writes no record (R61, R62, R350). -/
def swapOp (s : State) : State :=
  match s.press.edits with
  | [] => s
  | e :: rest =>
    if swapWaits s e.edit then s
    else
      let s := s.onPress fun p => { p with edits := rest }
      match flightOf s e.flight with
      | none => s
      | some f =>
        match swapRefusal s f e with
        | some r => refuseWith f r s
        | none => commitEditFor f e.edit (recordEdit (serve s (e.edit.mask s)) e.edit)

end Sys2Proof.Machine
end

