-- ==== Sys2Proof/Machine/Rings.lean ====
section
/-!
DEFINITION. Machine/Rings.lean: ring indices and entries, interrupts, halted rings, tiles that fail their check, stream tiles and pages (R289, R290,
R300, R324 to R331, R294).
-/

namespace Sys2Proof.Machine

/-! ## Tiles that fail (R289, R290) -/

/-- A tile retired for good, listed while the list has room (R290). -/
def retireTile (s : State) (t : Nat) : State :=
  let s := setTag s t { tagOf s t with state := .retired }
  let s := s.onVat fun v => { v with bad := v.bad.filter (· != t), held := v.held.map fun p => (p.1, p.2.filter (·.1 != t)) }
  let s := raise s 115 evTileRetired (w32 t) 0 0
  if s.nvm.retiredTiles.length < 128 then s.onNvm fun n => { n with retiredTiles := n.retiredTiles ++ [t] }
  else
    let first := s.vat.unlisted = 0
    let s := s.onVat fun v => { v with unlisted := satN 65535 (v.unlisted + 1) }
    if first then raise s 115 evVatRetireListFull (w32 t) 0 0 else s

/-- Rind tests a released tile that failed, and retires it or returns it to FREE (R289). -/
def testTile (s : State) (t : Nat) (pass : Bool) : State :=
  let s := s.onVat fun v => { v with toTest := v.toTest.filter (· != t) }
  if pass ∧ Tbl.get 0 s.vat.fails t < 3 then
    setTag (s.onVat fun v => { v with bad := v.bad.filter (· != t) }) t (tileFree (tagOf s t))
  else retireTile s t

/-- The tiles that failed a checked read and that their holder has released are claimed by Rind while it runs, and tested; the results of the tests are free
choices (R289, log entry 5). -/
def claimTested (s : State) : State :=
  if s.fw.rind ≠ .running then s
  else
    (s.vat.toTest.filter fun t => (tagOf s t).state == .free).foldl (fun s t =>
      let d := draw s
      testTile d.2 t (d.1 % 2 == 0)) s

/-- A read through a reference that fails (R286, R289): a stale one is counted, any other is a failed checked read with VAT_CRC_FAIL. -/
def failRead (s : State) (holder : Nat) (r : Nat × Nat) : State :=
  if honoured s r then raise (noteFail s r.1) 115 evVatCrcFail (w32 r.1) (w32 holder) 0 else countStale s

/-- The same where the holder lets the tile go at once. -/
def failRef (s : State) (holder : Nat) (r : Nat × Nat) : State := freeRef (failRead s holder r) holder r

/-- A holder's oldest tile fails its checked read (R289): the holder releases it. -/
def failHead (s : State) (holder : Nat) : State :=
  match refsOf s holder with
  | [] => s
  | r :: _ => failRef s holder r

/-- A holder's oldest tile cannot be read (R286, R288). -/
def headBad (s : State) (holder : Nat) : Bool := match refsOf s holder with | r :: _ => unreadable s r | [] => false

/-! ## Rings (R313, R316, R319) -/

/-- A ring by its ring set index. -/
def ringOf (s : State) (i : Nat) : Ring := Tbl.get {} s.link.rings i

/-- A ring's registers changed. -/
def onRing (s : State) (i : Nat) (f : Ring → Ring) : State := s.onLink fun l => { l with rings := Tbl.put l.rings i (f (Tbl.get {} l.rings i)) }

/-- Entry size of a ring (R313). -/
def entrySize (i : Nat) : Nat := if i < 16 then 64 else if i < 32 then 16 else 32

/-- Host address of an entry (R314, R315). -/
def entryAddr (s : State) (i k : Nat) : Nat := (ringOf s i).cfg.base + k * entrySize i

/-- A ring is served: enabled, valid and not halted. -/
def ringServed (s : State) (i : Nat) : Bool := (ringOf s i).up && !(ringOf s i).halted

/-- A CQ or EV ring has room for an entry (R326). -/
def ringRoom (s : State) (i : Nat) : Bool :=
  let r := ringOf s i
  decide (r.cfg.entries ≠ 0) && decide ((r.index + 1) % r.cfg.entries ≠ r.host)

/-- The device's own index advances; the phase inverts at the wrap (R325). -/
def advanceRing (s : State) (i : Nat) : State :=
  onRing s i fun r => if r.index + 1 ≥ r.cfg.entries then { r with index := 0, phase := !r.phase } else { r with index := r.index + 1 }

/-! ## Interrupts (R330, R380, R495) -/

/-- An MSI-X table entry. -/
def msixOf (s : State) (v : Nat) : Msix := Tbl.get {} s.link.msix v

/-- The message of a vector (R305, R330, R495): a posted write, or its PBA bit while the vector or the function is masked; none with MSI-X disabled. -/
def sendMsi (s : State) (v : Nat) : State :=
  let m := msixOf s v
  if !s.link.cfg.msixEnable then s
  else if m.ctrl.getLsbD 0 || s.link.cfg.msixMask then s.onLink fun l => { l with pba := if l.pba.contains v then l.pba else l.pba ++ [v] }
  else hostWrite s (m.addrLo.toNat / 4 * 4 + m.addrHi.toNat * 4294967296) (toLe m.data.toNat 4)

/-- A ring's vector signalled; its count restarts (R330). -/
def signalRing (s : State) (i : Nat) : State := sendMsi (onRing s i fun r => { r with coal := 0 }) (ringOf s i).cfg.vector

/-- IRQ_EN of a ring (R314). -/
def irqEn (s : State) (i : Nat) : Bool := bit (ringOf s i).cfg.flags 3

/-- An entry written counts toward its ring's signal (R330). -/
def countEntry (s : State) (i : Nat) : State :=
  if irqEn s i then
    let s := onRing s i fun r => { r with coal := r.coal + 1, coalAt := if r.coal = 0 then s.time.gtc else r.coalAt }
    let r := ringOf s i
    if r.cfg.coalCount ≤ r.coal ∨ r.cfg.coalCount ≤ 1 ∨ r.cfg.coalTime = 0 then signalRing s i else s
  else s

/-- COAL_TIME_EXPIRY (R330). -/
def coalTimeOp (i : Nat) (s : State) : State :=
  let r := ringOf s i
  if irqEn s i ∧ 0 < r.coal ∧ r.coalAt + usGtc r.cfg.coalTime ≤ s.time.gtc then signalRing s i else s

/-! ## Halted rings (R331) -/

/-- A ring halts: RING_HALT with its index and RING_FAULT. -/
def haltRing (s : State) (i : Nat) : State :=
  raise (onRing s i fun r => { r with halted := true }) 113 evRingHalt (w32 i) (w32 stRingFault) 0

/-! ## Completion entries (R324 to R327) -/

/-- The 16 bytes of a completion entry (R324). -/
def completionBytes (c : Completion) (seq : Nat) (phase : Bool) (head : Nat) : List Byte :=
  toLe (c.tag % 4096 + c.gen % 16 * 4096) 2 ++ toLe c.status 2 ++ toLe c.handle.toNat 4 ++ toLe c.result.toNat 4 ++ toLe seq 2
    ++ toLe (ofB phase * 32768 + c.sq % 16 * 2048 + head % 2048) 2

/-- A tag freed as its completion is written (R322); a TAG_BUSY completion frees none. -/
def freeTag (s : State) (c : Completion) : State :=
  if c.status = stTagBusy then s else s.onLink fun l => { l with tagsBusy := Tbl.del l.tagsBusy (tagKey c.sq c.tag) }

/-- The oldest held completion of a CQ written to its ring once it has room (R322, R324, R326, R330); a tile that fails its check is staged again (R289). -/
def writeCompletion (q : Nat) (s : State) : State :=
  let i := 16 + q
  if headBad s (ringHolder i) then syncCqTiles (failHead s (ringHolder i)) q
  else if !ringServed s i || !ringRoom s i || s.link.hostLost || !s.link.up then s
  else match Tbl.get [] s.link.cqHeld q with
    | [] => s
    | c :: rest =>
      let s := syncCqTiles (s.onLink fun l => { l with cqHeld := Tbl.put l.cqHeld q rest }) q
      let r := ringOf s i
      let seq := Tbl.get 0 s.link.cqSeq q
      let s := hostWrite (useAddr (entryAddr s i r.index) s) (entryAddr s i r.index) (completionBytes c seq r.phase (ringOf s c.sq).index)
      let s := s.onLink fun l => { l with cqSeq := Tbl.put l.cqSeq q ((seq + 1) % 65536) }
      let s := advanceRing (freeTag s c) i
      if c.noIrq then s else countEntry s i

/-! ## Event entries (R329, R378, R380) -/

/-- The 32 bytes of an event entry (R329). -/
def eventBytes (e : Event) (seq : Nat) (phase : Bool) : List Byte :=
  toLe e.gtc 8 ++ toLe (e.source % 256) 2 ++ toLe e.code 2 ++ toLe e.p0.toNat 4 ++ toLe e.p1.toNat 4 ++ toLe e.p2.toNat 4 ++ toLe seq 4
    ++ toLe e.lost 2 ++ [BitVec.ofNat 8 (ofB e.unsync), BitVec.ofNat 8 (ofB phase)]

/-- The oldest entry of an event ring's closed tiles written once the ring has room (R326, R329, R330, R380). -/
def writeEvent (r : Nat) (s : State) : State :=
  let i := evIndex r
  if headBad s (ringHolder i) then syncEvTiles (failHead s (ringHolder i)) r
  else if !ringServed s i || !ringRoom s i || s.link.hostLost || !s.link.up then s
  else match Tbl.get [] s.link.evHeld r with
    | [] => s
    | [] :: rest => syncEvTiles (s.onLink fun l => { l with evHeld := Tbl.put l.evHeld r rest }) r
    | (e :: es) :: rest =>
      let s := syncEvTiles (s.onLink fun l => { l with evHeld := Tbl.put l.evHeld r (if es.isEmpty then rest else es :: rest) }) r
      let x := ringOf s i
      let s := hostWrite (useAddr (entryAddr s i x.index) s) (entryAddr s i x.index) (eventBytes e x.evSeq x.phase)
      let s := onRing s i fun x => { x with evSeq := (x.evSeq + 1) % 4294967296 }
      let s := countEntry (advanceRing s i) i
      match e.direct with
      | some v => sendMsi s v
      | none => s

/-- RING_ENTRY_WRITE. -/
def ringEntryWriteOp (i : Nat) (s : State) : State :=
  if i < 32 then writeCompletion (i - 16) s else writeEvent (i - 40) s

/-! ## Polls of the doorbell block (R311, R312, R318, R332, R333) -/

/-- The doorbell poller runs: the link is up, ENABLE is set, and Paste has started and is not down (R312, R318, R420, R429). -/
def polling (s : State) : Bool :=
  s.link.up && s.link.setup.enable && match s.fw.paste with | .serving | .handover => true | .stopped => s.fw.restartDue.isSome | .down => false

/-- GTC counts from one poll to the next (R307, R318, R333): the interval of the power state, or 1 ms while reads fail. -/
def pollInterval (s : State) : Nat :=
  if s.link.pollFails then 400000 else usGtc (if s.power.mode = .doze then s.link.setup.pollDoze else s.link.setup.pollRun)

/-- A poll is made: its interval and the timeout are those of the SETUP registers as they stand (R311). -/
def notePoll (fails : Bool) (s : State) : State :=
  let s := s.onLink fun l => { l with pollFails := fails, silenceMs := l.setup.silence }
  s.onLink fun l => { l with pollDue := s.time.gtc + pollInterval s }

/-- Time for which polling runs (R332). -/
def pollTime (n : Nat) (s : State) : State := if polling s then s.onLink fun l => { l with silent := l.silent + n } else s

/-! ## Streams (R255, R256, R294, R303, R328, R360) -/

/-- The stream on an ST ring, running or stopped by the device. -/
def streamAt (s : State) (r : Nat) : Option Stream := Tbl.find s.meas.streams r

/-- A stream's registers written. -/
def setStream (s : State) (r : Nat) (x : Stream) : State := s.onMeas fun m => { m with streams := Tbl.put m.streams r x }

/-- Ring set index of an ST ring (R313). -/
abbrev stIndex (r : Nat) : Nat := 32 + r

/-- A control word (R255). -/
def controlWord (type len : Nat) : Word32 := w32 (type * 16777216 + 0xFF * 65536 + len)

/-- The two words of a 64-bit value, low word first. -/
def twoWords (v : Nat) : List Word32 := [w32 v, w32 (v / 4294967296)]

/-- A TIME record (R255). -/
def timeRecord (s : State) : List Word32 :=
  controlWord 1 3 :: twoWords s.time.gtc ++ [w32 (ofB (s.power.mode == .doze) + 2 * ofB (!s.time.synced))]

/-- A GAP record (R255); none where nothing was lost. -/
def gapRecord (x : StreamLoss) : List Word32 :=
  if x.words = 0 then [] else controlWord 3 4 :: w32 (satN 4294967295 x.words) :: twoWords x.gtc ++ [w32 x.cause]

/-- A BURST record (R255). -/
def burstRecord (s : State) (id no trig start : Nat) (late : Bool) : List Word32 :=
  controlWord 2 6 :: w32 (no % 65536 * 65536 + ofB (s.power.mode == .doze) * 512 + ofB late * 256 + id)
    :: twoWords trig ++ twoWords start ++ [w32 (satN 4294967295 (start - trig))]

/-- More words lost (R255): the first notes its burst start and its cause. -/
def StreamLoss.add (x : StreamLoss) (n gtc cause : Nat) : StreamLoss :=
  if n = 0 then x else if x.words = 0 then { words := n, gtc := gtc, cause := cause } else { x with words := x.words + n }

/-- Words of a stream lost before its next tile is opened (R294). -/
def loseWords (x : Stream) (n gtc cause : Nat) : Stream := { x with lost := x.lost.add n gtc cause }

/-- A closed tile of a stream lost (R289): what its GAP record reported and its own words, for a GAP record with CAUSE 1 before the next tile delivered. -/
def loseTile (x : Stream) (t : StreamTile) : Stream := { x with crcLost := (x.crcLost.add t.gap.words t.gap.gtc 1).add t.data t.burst 1 }

/-- The words of a tile as its 512 bytes. -/
def tileBytes (ws : List Word32) : List Byte := ws.flatMap fun w => toLe w.toNat 4

/-- The start of the burst a sequence runs, for a GAP record (R255). -/
def burstStart (s : State) (id : Nat) : Nat :=
  match Tbl.find s.meas.seqs id with
  | some q => (q.burst.map fun b => b.2.1).getD s.time.gtc
  | none => s.time.gtc

/-- One word of a stream put in its tile; a span that finds no tile is dropped whole (R256, R294). -/
def emitWord (r : Nat) (s : State) (w : Word32) : State :=
  match streamAt s r with
  | none => s
  | some x =>
    let g := burstStart s x.seqId
    if x.stopped.isSome then s
    else if x.filling.words.isEmpty then
      if 0 < x.dropLeft then setStream s r { loseWords x 1 g 0 with dropLeft := x.dropLeft - 1 }
      else if tileAvailable s (ringHolder (stIndex r)) then
        let s := allocTile s (ringHolder (stIndex r))
        let t : StreamTile := { words := gapRecord x.lost ++ timeRecord s ++ [w], at_ := s.time.gtc, data := 1, burst := g, gap := x.lost }
        setStream s r { x with filling := t, lost := {} }
      else setStream s r { loseWords x 1 g 0 with dropLeft := 123 }
    else
      let t : StreamTile := { x.filling with words := x.filling.words ++ [w], data := x.filling.data + 1 }
      if 128 ≤ t.words.length then
        setStream (closeTile s (ringHolder (stIndex r)) (some (tileBytes t.words))) r { x with filling := {}, tiles := x.tiles ++ [t] }
      else setStream s r { x with filling := t }

/-- A page reported filled (R328): the entry's bytes 8 to 31. -/
def reportPage (r : Nat) (last : Bool) (s : State) : State :=
  match streamAt s r with
  | none => s
  | some x =>
    if x.pageBytes = 0 then s
    else
      let i := stIndex r
      let g := ringOf s i
      let s := hostWrite (useAddr (entryAddr s i g.index) s) (entryAddr s i g.index + 8)
        (toLe x.pageBytes 4 ++ toLe (ofB x.pageGap + 2 * ofB last) 4 ++ toLe x.pageGtc 8 ++ toLe (x.pages % 4294967296) 4
          ++ [0, 0, 0, BitVec.ofNat 8 (ofB g.phase)])
      let s := advanceRing (onRing s i fun g => { g with pages := g.pages.drop 1 }) i
      countEntry (setStream s r { x with pageBytes := 0, pageGap := false, pages := x.pages + 1 }) i

/-- A pageable transfer that waits for a translation (R298). -/
def waitXfer (s : State) (x : Xfer) : State :=
  s.onLink fun l => { l with xfers := Tbl.put l.xfers l.nextXfer x, nextXfer := l.nextXfer + 1 }

/-- The number and entry of the transfer of a stream that waits, none when none does. -/
def streamXfer (s : State) (r : Nat) : Option (Nat × Xfer) := s.link.xfers.find? fun p => p.2.flight.isNone && p.2.ring == r

/-- The entry in which a page is to be reported is pageable and not translated (R298). -/
def entryWaits (s : State) (r : Nat) : Bool :=
  let i := stIndex r
  !bit (ringOf s i).cfg.flags 1 && !translated s (entryAddr s i (ringOf s i).index)

/-- A page reported, once its entry is translated (R298, R328). -/
def reportOrWait (r : Nat) (s : State) : State :=
  if !entryWaits s r then reportPage r false s
  else if (streamXfer s r).isSome then s
  else waitXfer s { flight := none, ring := r, addr := entryAddr s (stIndex r) (ringOf s (stIndex r)).index, done := 0 }

/-- The time for which a page may be in progress has passed (R328). -/
def pageLate (s : State) (x : Stream) : Bool := decide (x.pageAt + (if s.power.mode = .doze then 4000000 else 400000) ≤ s.time.gtc)

/-- A page in progress is due to be reported: it holds eight tiles, or its time has passed (R328). -/
def pageDue (s : State) (x : Stream) : Bool := decide (0 < x.pageBytes) && (decide (4096 < x.pageBytes + 512) || pageLate s x)

/-- The pages published and not filled go back to the host as STREAM_STOP completes: their entries are passed over (R303, log entry 119). -/
def passPages (r : Nat) (s : State) : State :=
  let i := stIndex r
  onRing ((ringOf s i).pages.foldl (fun s _ => advanceRing s i) s) i fun g => { g with pages := [] }

/-- The closed tiles of a stream written to its pages, oldest first, as many as a page holds whole (R328); a tile that fails its check is dropped, and the
next delivered has a GAP record before it, and the words this moves out go on in the payload after it (R256, R289, R328, log entry 97). -/
def deliverStream : Nat → Nat → State → State
  | 0, _, s => s
  | n + 1, r, s =>
    match streamAt s r with
    | none => s
    | some x =>
      let i := stIndex r
      match x.tiles with
      | [] => s
      | t :: rest =>
        if headBad s (ringHolder i) then deliverStream n r (setStream (failHead s (ringHolder i)) r (loseTile { x with tiles := rest } t))
        else if !ringServed s i || !s.link.up || (streamXfer s r).isSome then s
        else match (ringOf s i).pages with
          | [] => s
          | page :: _ =>
            let gap := x.crcLost.add t.gap.words t.gap.gtc t.gap.cause
            let own := t.words.drop (gapRecord t.gap).length
            let ws := gapRecord gap ++ own.take 4 ++ x.carry ++ own.drop 4
            let bs := tileBytes (ws.take 128)
            if 4096 < x.pageBytes + bs.length then (if entryWaits s r then reportOrWait r s else deliverStream n r (reportPage r false s))
            else if !translated s page then waitXfer s { flight := none, ring := r, addr := page, done := x.pageBytes }
            else
              let s := releaseTile (hostWrite s (page + x.pageBytes) bs) (ringHolder i)
              let s := setStream s r { x with tiles := rest, crcLost := {}, carry := ws.drop 128, pageBytes := x.pageBytes + bs.length,
                                              pageGap := x.pageGap || decide (0 < gap.words),
                                              pageGtc := if x.pageBytes = 0 then t.at_ else x.pageGtc,
                                              pageAt := if x.pageBytes = 0 then s.time.gtc else x.pageAt }
              deliverStream n r (if 4096 < x.pageBytes + bs.length + 512 then reportOrWait r s else s)

/-- Twice the most closed tiles a stream can hold. -/
abbrev streamFuel : Nat := 3072

/-- Words of a stream emitted, and what is closed delivered. -/
def emitWords (s : State) (r : Nat) (ws : List Word32) : State := deliverStream streamFuel r (ws.foldl (emitWord r) s)

/-- A stream's tiles that were not delivered released, its waiting transfer withdrawn (R285, R303). -/
def dropStreamTiles (s : State) (r : Nat) : State :=
  releaseAll (dropXfers s fun x => x.flight.isNone && x.ring == r) (ringHolder (stIndex r))

/-- A sequence's burst and triggers end with its stream (R252). -/
def quietSeq (s : State) (id : Nat) : State :=
  match Tbl.find s.meas.seqs id with
  | some q => setSeq s id { q with burst := none, armed := none, latch := none, acc := [] }
  | none => s

/-- The page for which a page request is outstanding is released unfilled (R303). -/
def releasePage (r : Nat) (s : State) : State :=
  match streamXfer s r, streamAt s r with
  | some (_, y), some x => if y.prg.isSome then setStream s r { x with pageBytes := 0, pageGap := false } else s
  | _, _ => s

/-- A running stream ends: what can be delivered is, the final page is reported with LAST (R303, R328, R360). -/
def endStream (s : State) (r : Nat) : State :=
  match streamAt s r with
  | none => s
  | some x => quietSeq (dropStreamTiles (reportPage r true (releasePage r (deliverStream streamFuel r s))) r) x.seqId

/-- The device stops a stream (R299, R360): it holds its ring until STREAM_STOP. -/
def stopStream (s : State) (r cause : Nat) : State :=
  match streamAt s r with
  | none => s
  | some x =>
    if x.stopped.isSome then s
    else
      let s := endStream s r
      match streamAt s r with
      | some x => setStream s r { x with stopped := some cause, tiles := [], filling := {}, dropLeft := 0 }
      | none => s

/-- A stream fault (R299, R300, R303, R328): the page in progress is reported with LAST, or released unfilled where it or its entry waits for a page; then
STREAM_FAULT. -/
def faultStream (s : State) (r status : Nat) : State :=
  match streamAt s r with
  | none => s
  | some x =>
    if x.stopped.isSome then s
    else
      let s := releasePage r s
      let s := if entryWaits s r then s else reportPage r true s
      let s := quietSeq (dropStreamTiles s r) x.seqId
      let s := match streamAt s r with
        | some x => setStream s r { x with stopped := some 1, tiles := [], filling := {}, dropLeft := 0, pageBytes := 0, pageGap := false }
        | none => s
      raise s 114 evStreamFault (w32 r) (w32 status) 0

/-- STREAM_PAGE_FILLED (R328): a page in progress whose time has run out is reported. -/
def streamPageOp (r : Nat) (s : State) : State :=
  match streamAt s r with
  | none => s
  | some x => if x.stopped.isNone ∧ 0 < x.pageBytes ∧ pageLate s x then reportOrWait r s else s

end Sys2Proof.Machine
end

