-- ==== Sys2Proof/Machine/Telemetry.lean ====
section
/-!
DEFINITION. Machine/Telemetry.lean: the figures of telemetry, the UNIT_STATUS mirror, TELEM_SNAPSHOT, streams, captures and sequences by command
(R251 to R264, R358 to R363, R492 to R494).
-/

namespace Sys2Proof.Machine

/-! ## Averages (R257, R258) -/

/-- The samples of a window that ends now. -/
def inWindow100 (s : State) (l : List (Nat × Rat)) : List Rat := (l.filter fun p => decide (s.time.gtc < p.1 + windowGtc)).map (·.2)

/-- Sum of a list. -/
def sumRat (l : List Rat) : Rat := l.foldl (· + ·) 0

/-- Mean of a list of figures, none of an empty one. -/
def meanRat (l : List Rat) : Option Rat := if l.isEmpty then none else some (sumRat l / (l.length : Rat))

/-- The figure of largest magnitude, with its sign. -/
def peakRat (l : List Rat) : Option Rat :=
  match l with
  | [] => none
  | x :: xs => some (xs.foldl (fun m y => if ratAbs m < ratAbs y then y else m) x)

/-- The leaves whose figures a unit sums (R257): itself, every member of a parallel hoop, the non-retired leaves of a group hoop. -/
def figureLeaves (s : State) (u : Nat) : List Nat :=
  if u < 71 then [u]
  else match kindOf s u with
    | .parallel => maskOf s u
    | _ => (maskOf s u).filter fun m => (leafOf s m).st != .retired

/-- The sum over leaves of a figure that some may not have, none when none has it (R257). -/
def sumFigures (l : List (Option Rat)) : Option Rat := match l.filterMap id with | [] => none | xs => some (sumRat xs)

/-- Mean current of a unit over the last 100 µs, mA (R257). -/
def iAvg (s : State) (u : Nat) : Option Rat := sumFigures ((figureLeaves s u).map fun m => meanRat (inWindow100 s (leafOf s m).tel.iSamples))

/-- Largest current of a unit over the last 100 µs, mA (R258). -/
def iPeak (s : State) (u : Nat) : Option Rat := sumFigures ((figureLeaves s u).map fun m => peakRat (inWindow100 s (leafOf s m).tel.iSamples))

/-- A mean current as telemetry writes it; 0x8000_0000 without a Valid sample (R257). -/
def maWord (x : Option Rat) : Word32 := match x with | some v => w32i (roundStep v) | none => 0x80000000#32

/-- P_FET of one leaf, mW (R258). -/
def pFet (s : State) (m : Nat) : Rat :=
  let l := leafOf s m
  if !hasFet l.env then 0
  else ((meanRat (inWindow100 s l.tel.pTicks)).getD 0) * 1000 + sumRat (inWindow100 s l.tel.edges) * 10000000

/-- E_LOAD over a tick (R258): V_OUT × I × dt, mJ. -/
def loadStep (s : State) (u : Nat) : State :=
  let e := outMv s u * leafMa s u * (tickUs s : Rat) / 1000000000
  if e = 0 then s else onLeaf s u fun l => { l with led := { l.led with eLoad := l.led.eLoad + e } }

/-! ## The mirror (R492 to R494) -/

/-- The four words of a unit number's mirror entry. -/
def mirrorEntry (s : State) (u : Nat) : List Word32 :=
  if 71 ≤ u ∧ u < 128 then [0, 0, 0, 0]
  else if 128 ≤ u ∧ u < 255 ∧ (hoopOf s u).isNone then [stateWord s u, 0, 0, 0]
  else [stateWord s u, protWord s u, thermalWord s u, maWord (iAvg s u)]

/-- MIRROR_REFRESH: all entries at once, at the first boundary at or after each multiple of 100 µs (R494). -/
def mirrorRefreshOp (s : State) : State :=
  if s.time.mirrorDue ≤ s.time.gtc ∧ ¬ s.power.clockFail ∧ s.power.mode ≠ .park then
    let m : Tbl (List Word32) := (List.range 256).map fun u => (u, mirrorEntry s u)
    (s.onPress fun p => { p with mirror := m }).onTime fun t =>
      { t with mirrorSeq := (t.mirrorSeq + 1) % 4294967296, mirrorDue := (t.gtc / 40000 + 1) * 40000 }
  else s

/-- A mirror entry as it reads: before the first refresh, the reset words (R492, R493). -/
def mirrorRead (s : State) (u : Nat) : List Word32 :=
  match Tbl.find s.press.mirror u with
  | some ws => ws
  | none =>
    if 71 ≤ u ∧ u < 128 then [0, 0, 0, 0]
    else if 128 ≤ u ∧ u < 255 then [0x0040FF00#32, 0, 0, 0]
    else [0x0040FF00#32, 0, 0, 0x80000000#32]

/-! ## Telemetry records (R258) -/

/-- QUAL of a leaf, or of a parallel hoop by its members: no Valid sample of any, a Clipped sample or PLAUS_FAIL of one; the gain code is that of its slot (log
entry 100). -/
def qualBits (s : State) (u : Nat) : Nat :=
  let ms := figureLeaves s u
  let e := evalUnit s u
  let recent (t : Option Nat) : Bool := match t with | some t => decide (s.time.gtc < t + windowGtc) | none => false
  let tel (m : Nat) : Telem := (leafOf s m).tel
  let auto := leafKind e != .regulator && soft s e fMeasGain == 4
  ofB (ms.all fun m => (inWindow100 s (tel m).iSamples).isEmpty) + 2 * ofB (ms.all fun m => !recent (tel m).vValidAt)
    + 4 * ofB (ms.any fun m => recent (tel m).clippedAt) + 8 * ofB (ms.any fun m => (nodeOf s (iNode m)).plausFail)
    + (if leafKind e = .regulator then 0 else (nodeOf s (iNode e)).gain % 8) * 16 + 128 * ofB auto

/-- V_AUX of a leaf, mV. -/
def vAux (s : State) (u : Nat) : Rat :=
  match leafKind u with
  | .feed => mv s (supplyNode u)
  | .hold => mv s (192 + (holdParams s).senseBank)
  | .regulator => 0
  | _ => mv s (gNode u) - mv s (vNode u)

/-- An unsigned energy in mJ. The manual states none for a negative integral: it reads 0 (DESIGN CHOICE, log entry 113). -/
def energyNat (x : Rat) : Nat := (roundStep x).toNat

/-- A leaf's own figures CAP, RES_I, E_EV_LAST (R258). -/
def capOfUnit (s : State) (u : Nat) : Nat := if u = 70 then s.press.hold.storeCap else (vleaf s u).ramp.capEst

/-- The 64-byte telemetry record of a unit (R258). CAP, RES_I, E_EV_LAST and QUAL of a group hoop are stated nowhere: they are taken from `free`. A
figure beyond its 32 bits keeps its low bits (DESIGN CHOICE, log entry 113). -/
def telemRecord (s : State) (u free : Nat) : List Byte :=
  let ms := figureLeaves s u
  let leaf := decide (u < 71)
  let group := kindOf s u == .group || kindOf s u == .root
  let e := evalUnit s u
  let tjs := ms.map fun m => (leafOf s m).led.tj
  let tcs := ms.map fun m => (leafOf s (slotOf s m)).led.tc
  let top (l : List Int) : Int := l.foldl (fun m x => if m < x then x else m) (l.headD 0)
  toLe (stateWord s u).toNat 4 ++ toLe (protWord s u).toNat 4 ++ toLe (thermalWord s u).toNat 4 ++ toLe (diagWord s u).toNat 4
    ++ toLe (maWord (iAvg s u)).toNat 4 ++ toLe (maWord (iPeak s u)).toNat 4
    ++ toLe (if leaf then w32i (roundStep (outMv s u)) else 0).toNat 4 ++ toLe (if leaf then w32i (roundStep (vAux s u)) else 0).toNat 4
    ++ toLe (w32i (roundStep (sumRat (ms.map (pFet s))))).toNat 4
    ++ toLe (if group then free else capOfUnit s e) 4
    ++ toLe (if group then free / 4294967296 else (w32i (vleaf s e).ramp.resEst).toNat) 4
    ++ toLe (BitVec.ofInt 16 (tempSteps (top tjs) 16)).toNat 2 ++ toLe (BitVec.ofInt 16 (tempSteps (top tcs) 16)).toNat 2
    ++ toLe (energyNat (sumRat (ms.map fun m => (leafOf s m).led.eLoad))) 8
    ++ toLe (if group then free / 18446744073709551616 else energyNat (vleaf s e).led.eEvLast) 4
    ++ toLe (if group then free / 79228162514264337593543950336 else qualBits s u) 4

/-! ## Measurement status (R259) -/

/-- The standing conversions of a bank's own nodes in RUN, MS/s (R228, R229): those of its current nodes, and those of its other nodes. -/
def ownRates (b : Nat) : Rat × Rat := if b = 0 then (36, 12171875 / 1000000) else (35, 11921875 / 1000000)

/-- Standing load of a bank, % (R229). One that has taken over converts the other's current nodes at their standing rate and its other nodes at a quarter of
theirs, and no plausibility pairs (R242); in DOZE every rate is a tenth and the bank's an eighth (R227, R228). -/
def standingLoad (s : State) (b : Nat) : Rat :=
  if (mbank s b).takeover then
    let own := ownRates b
    let other := ownRates (1 - b)
    let run := own.1 + own.2 + other.1 + other.2 / 4
    if s.power.mode = .doze then run / 10 * 8 else run
  else if s.power.mode = .doze then (if b = 0 then 401 / 10 else 391 / 10) else (if b = 0 then 497 / 10 else 485 / 10)

/-- Load of a sequence on its bank, % (R231). -/
def seqLoad (spacing : Nat) : Rat := if spacing = 0 then 0 else 10 / (spacing : Rat)

/-- Standing and declared load of a bank, % (R231), without sequence `but`. -/
def bankLoad (s : State) (b but : Nat) : Rat :=
  standingLoad s b + sumRat ((s.meas.seqs.filter fun p => p.1 != but && p.2.bank == b).map fun p => seqLoad p.2.spacing)

/-- The slices of a bank. -/
def sliceNums : List Nat := List.range 11

/-- Age of a bank's oldest slice calibration in ms (R259). -/
def calAge (s : State) (b : Nat) : Nat :=
  let k := mbank s b
  (sliceNums.filter fun x => !bit k.failed x).foldl (fun m x => Nat.max m ((s.time.gtc - Tbl.get 0 k.calAt x) / 400000)) 0

/-- The status bytes of one measurement bank. -/
def bankStatus (s : State) (b : Nat) : List Byte :=
  let k := mbank s b
  toLe ((roundStep (bankLoad s b 8)).toNat % 256 * 16777216 + k.failed % 2048 * 256 + k.outSlice % 16 * 16 + ofB k.takeover * 8
      + ofB k.bankFail * 4 + ofB k.refFail * 2 + ofB k.refReady) 4
    ++ toLe k.cntSettling 4 ++ toLe k.cntClipped 4 ++ toLe k.cntSuspect 4 ++ toLe k.cntChecks 4 ++ toLe k.cntFails 4 ++ toLe k.cntSwaps 4
    ++ toLe k.cntMismatch 4 ++ toLe k.cntUrgent 4 ++ toLe k.cntDisplaced 4 ++ toLe (satN 4294967295 (calAge s b)) 4
    ++ toLe ((List.range 243).filter fun n => nodeBank n == b && (nodeOf s n).plausFail).length 4

/-- The 128-byte measurement status block. -/
def measStatus (s : State) : List Byte :=
  bankStatus s 0 ++ bankStatus s 1 ++ (List.range 8).flatMap fun k => toLe (Tbl.get 0 s.meas.overruns k) 4

/-! ## TELEM_SNAPSHOT (R358) -/

/-- The units whose records a snapshot writes, the addressed one first (R358). -/
def snapshotUnits (s : State) (u : Nat) (subtree : Bool) : List Nat :=
  if subtree ∧ 71 ≤ u then
    let hs := if u = 255 then s.press.hoops.map (·.1) else hoopsUnder s u
    u :: (List.range 255).filter fun n => (maskOf s u).contains n || hs.contains n
  else [u]

/-- The nodes of the URGENT form. -/
def urgentNodes (sub : Submission) : List Nat := (List.range (arg sub 28 1)).map fun i => arg sub (32 + i) 1

/-- A TELEM_SNAPSHOT whose conversions have all come writes its buffer (R358). -/
def finishSnapshot (f : Flight) (got : List (Nat × Word32)) (bytes : List Byte) (s : State) : State :=
  let ns := urgentNodes f.sub
  if ns.all fun n => got.any fun p => p.1 == n then
    writeBuffer s f (bytes ++ ns.flatMap fun n => toLe ((got.find? fun p => p.1 == n).elim 0 fun p => p.2.toNat) 4)
  else s

/-- TELEM_SNAPSHOT. -/
def runTelemSnapshot (f : Flight) (s : State) : State :=
  let u := handleUnit f.sub.handle
  let urgent := flag f.sub 2
  let ns := urgentNodes f.sub
  if urgent ∧ (ns.length < 1 ∨ 8 < ns.length ∨ ns.any fun n => decide (240 ≤ n) && decide (n ≠ 242)) then done s f stRange
  else
    let us := snapshotUnits s u (flag f.sub 3)
    let d := draw s
    let bytes := us.flatMap (fun x => telemRecord s x d.1) ++ (if u = 255 then measStatus s else [])
    let s := d.2
    if f.sub.bufLen < bytes.length + (if urgent then 4 * ns.length else 0) then
      doneWith s f stRange (w32 (bytes.length + (if urgent then 4 * ns.length else 0)))
    else if urgent then setPhase (ns.foldl requestUrgent s) f.id (.urgent [] bytes)
    else writeBuffer s f bytes

/-! ## Streams by command (R359, R360) -/

/-- STREAM_START. -/
def runStreamStart (f : Flight) (s : State) : State :=
  let id := arg f.sub 28 1
  let r := arg f.sub 29 1
  if 7 < id ∨ 7 < r then done s f stRange
  else match Tbl.find s.meas.seqs id with
    | none => done s f stState
    | some q =>
      if !ringServed s (stIndex r) then done s f stState
      else if (streamOf s id).isSome ∨ (streamAt s r).isSome then done s f stBusy
      else
        let s := setSeq s id { q with burstNo := 0, burst := none, armed := none, latch := none, acc := [] }
        done (setStream s r { seqId := id }) f stOk

/-- STREAM_STOP. -/
def runStreamStop (f : Flight) (s : State) : State :=
  let r := arg f.sub 28 1
  if 7 < r then done s f stRange
  else match streamAt s r with
    | none => done s f stState
    | some x =>
      let s := passPages r (if x.stopped.isNone then endStream s r else s)
      let pages := (streamAt s r).elim 0 (·.pages)
      doneWith (s.onMeas fun m => { m with streams := Tbl.del m.streams r }) f stOk (w32 (x.stopped.getD 0 + satN 16777215 pages * 256))

/-! ## Sequences by command (R231, R251, R363) -/

/-- A sequence definition parsed from its buffer (R251). -/
def parseSeq (d : List Byte) : Sequence :=
  { bank := byteAt d 1, filter := byteAt d 2, trigKind := byteAt d 3, spacing := leAt d 6 2, trigDelay := leAt d 8 4, trigArg := leAt d 12 4,
    nodes := (List.range (leAt d 4 2)).map fun i => byteAt d (16 + i) }

/-- A sequence definition is within its ranges (R251). -/
def seqInRange (id : Nat) (q : Sequence) : Bool :=
  decide (id < 8) && decide (q.bank < 2) && decide (q.filter < 4) && decide (q.trigKind < 4) && decide (1 ≤ q.nodes.length ∧ q.nodes.length ≤ 256)
    && decide (1 ≤ q.spacing) && decide (q.trigDelay ≤ 100000) && q.nodes.all (fun n => decide (n < 243))
    && (q.trigKind != 3 || decide (10 ≤ q.trigArg ∧ q.trigArg ≤ 10000000))

/-- The highest load a SEQ_DEFINE may bring a bank to, % (R231). -/
def loadLimit (s : State) (b : Nat) : Rat := if (mbank s b).failed = 0 then 90 else 80

/-- The entries of a redefinition whose samples R238 marks: those whose node changes, all of them when the filter changes, and those still marked from a
redefinition before. An entry that the old definition did not have has no node that changes. -/
def redefined (old : Option Sequence) (q : Sequence) : Sequence :=
  match old with
  | none => q
  | some o =>
    let is := List.range q.nodes.length
    { q with newNodes := is.filter fun i => o.newNodes.contains i || (o.nodes[i]?).any (· != q.nodes.getD i 0),
             newFilter := is.filter fun i => o.filter != q.filter || o.newFilter.contains i }

/-- SEQ_DEFINE. -/
def runSeqDefine (f : Flight) (s : State) : State :=
  let id := byteAt f.sub.data 0
  let q := parseSeq f.sub.data
  if f.sub.bufLen < (16 + q.nodes.length + 3) / 4 * 4 ∨ ¬ seqInRange id q then done s f stRange
  else if loadLimit s q.bank < bankLoad s q.bank id + seqLoad q.spacing then done s f stRange
  else if (streamOf s id).isSome then done s f stBusy
  else done ((setSeq s id (redefined (Tbl.find s.meas.seqs id) q)).onMeas fun m => { m with overruns := Tbl.del m.overruns id }) f stOk

/-- The outcome a trigger with time `t` will have (R363). -/
def triggerOutcome (s : State) (id t : Nat) : Nat :=
  match Tbl.find s.meas.seqs id with
  | none => 3
  | some q =>
    if (streamOf s id).isNone ∨ q.suspended then 3
    else
      let q := rollBurst s q (Nat.max t s.time.gtc)
      if q.burst.isNone ∧ q.armed.isNone then 0 else if q.latch.isNone then 1 else 2

/-- SEQ_TRIGGER: at its scheduled GTC, or now (R252, R363). -/
def runSeqTrigger (f : Flight) (s : State) : State :=
  let id := arg f.sub 28 1
  if 7 < id then done s f stRange
  else
    let t := if f.sub.time = 0 then s.time.gtc else f.sub.time
    doneWith (seqTrigger s id t) f stOk (w32 (triggerOutcome s id t))

/-- Good tiles of a region (R290). -/
def goodTiles (s : State) (holder : Nat) : Nat :=
  let r := regionOf s.vat holder
  r.2 - (s.vat.tags.filter fun p => decide (r.1 ≤ p.1 ∧ p.1 < r.1 + r.2) && p.2.state == .retired).length

/-- Rows the history holds (R260, R290). -/
def historyRows (s : State) : Nat := goodTiles s 68 * 512 / 136

/-! ## The history in its tiles (R260, R261, R285 to R287) -/

/-- A tile of the history region is in service. -/
def histGood (s : State) (t : Nat) : Bool := (tagOf s t).state != .retired && !s.vat.toTest.contains t

/-- The tiles of the history region, beginning after tile `t`, with wrap-around. -/
def histAfter (s : State) (t : Nat) : List Nat :=
  let r := regionOf s.vat 68
  (List.range r.2).map fun i => r.1 + (t + 1 - r.1 + i) % r.2

/-- The history fills a tile. -/
def histFills (s : State) (t : Nat) : Bool := (tagOf s t).state == .filling && (tagOf s t).holder == 68

/-- Where the next row begins, and the tile it runs on into where it does not end in its first: rows are packed in the tiles in service, and the ring begins
again where the last has no room for a whole row (R260). -/
def rowPlace (s : State) : Option (Nat × Nat × Option Nat) :=
  let r := regionOf s.vat 68
  let from_ (t : Nat) (o : Nat) : Option (Nat × Nat × Option Nat) :=
    match (histAfter s t).find? (histGood s) with
    | some n => if o < 512 ∧ t < n then some (t, o, some n) else some (n, 0, none)
    | none => none
  match s.meas.histAt with
  | some (t, o) =>
    if histFills s t then (if o + 136 ≤ 512 then some (t, o, none) else from_ t o) else from_ t 512
  | none => from_ (r.1 + r.2 - 1) 512

/-- The tiles of the history that no row fills any more are closed, all but `t` (R285). -/
def closeHist (t : Nat) (s : State) : State :=
  ((refsOf s 68).filter fun r => r.1 != t && histFills s r.1).foldl (fun s r => closeRef s r (some (loadBytes s.vat.mem (512 * r.1) 512))) s

/-- A tile that the history begins to fill: allocated, or its own rewritten (R285, R287). -/
def openHist (s : State) (t : Nat) : State := if histFills s t then s else fillTile s 68 t

/-- Address in the Vat of the k-th VALUE of a row. -/
def rowAddr (r : HistRow) (k : Nat) : Nat :=
  if r.off + 2 * k < 512 then 512 * (r.refs.headD (8192, 0)).1 + r.off + 2 * k else 512 * ((r.refs.drop 1).headD (8192, 0)).1 + (r.off + 2 * k - 512)

/-- A VALUE of a row written. -/
def putRow (r : HistRow) (k : Nat) (w : Word16) (s : State) : State := s.onVat fun v => { v with mem := storeBytes v.mem (rowAddr r k) (toLe w.toNat 2) }

/-- A row of a time begun, with 0x8000 in every place (R260, R261). -/
def beginRow (t iv : Nat) (s : State) : State :=
  match rowPlace s with
  | none => s
  | some (a, o, n) =>
    let s := openHist (closeHist a s) a
    let s := match n with | some b => openHist s b | none => s
    let ref (t : Nat) : Nat × Nat := (t, (tagOf s t).gen)
    let r : HistRow := { time := t, interval := iv, off := o, refs := ref a :: n.toList.map ref }
    let s := (List.range 68).foldl (fun s k => putRow r k 0x8000 s) s
    s.onMeas fun m => { m with history := (r :: m.history).take (historyRows s),
                               histAt := some (match n with | some b => (b, o + 136 - 512) | none => (a, o + 136)) }

/-- The place of a node in a row. -/
def rowIndex (n : Nat) : Nat := if n < 64 then n else n - 132

/-- A standing conversion of a history node entered in the row of its time (R260, R261). -/
def historySample (s : State) (n : Nat) (v : Int) (q : Quality) : State :=
  if !historyNodes.contains n then s
  else
    let iv := rowInterval s
    let t := s.time.gtc / iv * iv
    let w : Word16 := if q = .valid ∨ q = .clipped then BitVec.ofInt 16 v else 0x8000
    let s := match s.meas.history with
      | r :: _ => if r.time = t ∧ r.interval = iv then s else beginRow t iv s
      | [] => beginRow t iv s
    match s.meas.history with
    | r :: _ => if r.time = t ∧ r.interval = iv ∧ !r.lost then putRow r (rowIndex n) w s else s
    | [] => s

/-- The rows of a tile that failed its check, or was rewritten, are lost (R263, R286, R289). -/
def loseRows (r : Nat × Nat) (s : State) : State :=
  s.onMeas fun m => { m with history := m.history.map fun h => if h.refs.contains r then { h with lost := true } else h }

/-- A row's tiles read: each that fails its check is dropped, and its rows are lost (R263, R286, R289). -/
def checkRow (h : HistRow) (s : State) : State :=
  (h.refs.filter (unreadable s)).foldl (fun s r => loseRows r (failRef s 68 r)) s

/-- One row of a capture copied from the history: what is not held, and what was lost, reads 0x8000; the latter counts (R261, R263, R264). -/
def copyRow (k : Nat) (t : Nat) (s : State) : State :=
  let find (s : State) : Option HistRow := s.meas.history.find? fun h => h.time == t && h.interval == (capOf s k).interval
  let s := match find s with | some h => if h.lost then s else checkRow h s | none => s
  let c := capOf s k
  match find s with
  | some h =>
    let row := c.nodes.map fun n => if h.lost then (0x8000 : Word16) else BitVec.ofNat 16 (leAt (loadBytes s.vat.mem (rowAddr h (rowIndex n)) 2) 0 2)
    setCap s k { c with rows := c.rows ++ [row], lostRows := c.lostRows + ofB h.lost }
  | none => setCap s k { c with rows := c.rows ++ [c.nodes.map fun _ => 0x8000] }

/-- The rows of a capture with times from `a` up to `b` copied, oldest first (R263). -/
def copyRows (k a b : Nat) (s : State) : State :=
  let iv := (capOf s k).interval
  (List.range (if b ≤ a then 0 else (b - a + iv - 1) / iv)).foldl (fun s i => copyRow k (a + i * iv) s) s

/-- The rows before the trigger copied for each slot that has begun to fill, once the last of them is complete (R260, R263). -/
def copyCaptures (s : State) : State :=
  [0, 1, 2, 3].foldl (fun s k =>
    let c := capOf s k
    if c.state = .filling ∧ ¬ c.copied ∧ rowFrom c.trigGtc c.interval ≤ s.time.gtc then
      copyRows k c.firstRow (rowFrom c.trigGtc c.interval) (setCap s k { c with copied := true })
    else s) s

/-! ## Captures by command (R260 to R264, R361, R362) -/

/-- Row interval in µs. -/
def rowUs (s : State) : Nat := if s.power.mode = .doze then 10 else 1

/-- NODES of a CAPTURE_ARM. -/
def captureNodes (sub : Submission) : List Nat := (List.range (arg sub 29 1)).map fun i => arg sub (44 + i) 1

/-- The bytes of header and rows that the window of a CAPTURE_ARM takes (R262, R264). -/
def captureSize (s : State) (sub : Submission) : Nat :=
  64 + (arg sub 32 4 + arg sub 36 4 + rowUs s - 1) / rowUs s * 2 * (captureNodes sub).length

/-- A CAPTURE_ARM is within its ranges (R262, R361). -/
def captureInRange (s : State) (sub : Submission) : Bool :=
  let slot := arg sub 28 1
  let ns := captureNodes sub
  let kind := arg sub 30 1
  let pre := arg sub 32 4
  let post := arg sub 36 4
  decide (slot < 4) && decide (1 ≤ ns.length ∧ ns.length ≤ 16) && decide (kind < 3) && decide (pre ≤ 7000) && decide (post ≤ 1000)
    && ns.all (fun n => historyNodes.contains n) && decide ((sub.handle ≠ 0) = (kind = 0))
    && decide (pre + 500 ≤ historyRows s * rowUs s)
    && decide (captureSize s sub ≤ goodTiles s (64 + slot) * 512)

/-- CAPTURE_ARM (R361); with FIRE it is no event, and the TRIGGER it leaves in the header is a free value (R264 states none; log entry 5). -/
def runCaptureArm (f : Flight) (s : State) : State :=
  let k := arg f.sub 28 1
  if flag f.sub 3 then
    if 3 < k then done s f stRange
    else if (capOf s k).state ≠ .armed then done s f stState
    else
      let d := draw s
      done (fireCapture d.2 k (d.1 % 256) (d.1 / 256 % 65536) (if f.sub.time = 0 then s.time.gtc else f.sub.time)) f stOk
  else if ¬ captureInRange s f.sub then done s f stRange
  else
    let c := capOf s k
    if c.state = .filling ∨ (c.state = .held ∧ ¬ flag f.sub 2) then done s f stBusy
    else
      let s := setCap s k { state := .armed, nodes := captureNodes f.sub, trigKind := arg f.sub 30 1, trigUnit := handleUnit f.sub.handle,
                            trigArg := arg f.sub 40 4, pre := arg f.sub 32 4, post := arg f.sub 36 4,
                            tiles := tilesFor (captureSize s f.sub) }
      done (settleCapture k s) f stOk

/-- Rows of a capture before and from its trigger. -/
def preRows (c : Capture) : Nat := (c.trigGtc + c.interval - 1) / c.interval - (c.firstRow + c.interval - 1) / c.interval

/-- The header and rows of a held capture (R264). -/
def captureBytes (k : Nat) (c : Capture) : List Byte :=
  [BitVec.ofNat 8 k, BitVec.ofNat 8 c.nodes.length, 0, 0] ++ toLe (c.trigSource % 256 + c.trigCode % 65536 * 256) 4 ++ toLe c.trigGtc 8
    ++ toLe c.firstRow 8 ++ toLe c.interval 4 ++ toLe (preRows c) 2 ++ toLe (c.rows.length - preRows c) 2
    ++ (List.range 16).map (fun i => BitVec.ofNat 8 (c.nodes.getD i 0xFF)) ++ toLe c.lostRows 4 ++ toLe c.ignored 4 ++ List.replicate 8 0
    ++ c.rows.flatMap fun r => r.flatMap fun v => toLe v.toNat 2

/-- A capture's bytes put in its slot's tiles, which are closed; what it lacks is allocated, what it does not need is let go (R285). -/
def closeCapture (k : Nat) (s : State) : State :=
  let h := 64 + k
  let bs := captureBytes k (capOf s k)
  let n := tilesFor bs.length
  let s := (List.range (n - (refsOf s h).length)).foldl (fun s _ => allocTile s h) s
  freeRefs (closeRefs ((refsOf s h).take n) bs s) h ((refsOf s h).drop n)

/-- CAPTURE_DONE (R263): the row times of the capture have passed, and its tiles are closed. It waits while the slot's former tiles are still read (R287, log
entry 19). Its source is stated nowhere: a free choice of those whose parts hold captures (log entry 5). -/
def captureDoneOp (k : Nat) (s : State) : State :=
  let c := capOf s k
  if c.state = .filling ∧ rowFrom (c.trigGtc + c.post * 400) c.interval ≤ s.time.gtc ∧ ¬ captureReading s k then
    let s := copyRows k (rowFrom c.trigGtc c.interval) (rowFrom (c.trigGtc + c.post * 400) c.interval) (copyCaptures s)
    let s := closeCapture k (setCap s k { capOf s k with state := .held })
    let d := draw s
    raise d.2 ([115, 119, 120].getD (d.1 % 3) 119) evCaptureDone (w32 k) 0 0
  else s

/-- The rows of a capture slot's damaged tiles (R264): offset and length of each row lost, row by row. -/
def lostRowsOf (s : State) (k : Nat) (c : Capture) : List Nat :=
  let w := 2 * c.nodes.length
  let ts := refsOf s (64 + k)
  let bad := (List.range ts.length).filter fun i => unreadable s (ts.getD i (8192, 0))
  (List.range c.rows.length).filter fun i => bad.any fun t => decide (512 * t < 64 + (i + 1) * w) && decide (64 + i * w < 512 * (t + 1))

end Sys2Proof.Machine
end

