-- ==== Sys2Proof/Machine/Cave.lean ====
section
/-!
DEFINITION. Machine/Cave.lean: the bytes of Cave records, the clear, memory failures and modes of the Cave, what waits in staging, the operating counters, the
refresh of the memories (R395 to R409, R515, R516).
-/

namespace Sys2Proof.Machine

/-! ## Windows and clears (R402, R403, R406) -/

/-- CAVE_REPEAT_WINDOW: the open record's window has ended (R402, R403). -/
def caveRepeatWindowOp (s : State) : State := if s.fw.rind = .running ∧ s.cave.open_.isSome ∧ s.cave.openEnd ≤ s.time.gtc then commitOpen s else s

/-- A clear (R406): the open record, then the CLEAR record that names the clearer; its SEQ. -/
def clearCave (clearer : Nat) (s : State) : State × Nat :=
  let v := visibleSeq s.cave
  let s := commitOpen s
  (raise s 116 evClear (w32 clearer) (w32 v) 0, s.cave.nextSeq)

/-! ## What waits in staging (R401, R403, R431, R451) -/

/-- The open record put with those that wait in staging (R403). -/
def stageOpen (s : State) : State :=
  match s.cave.open_ with
  | none => s
  | some r => stageRec (syncStaging (s.onCave fun c => { c with open_ := none })) r

/-- Staging tiles that fail their checked read: Rind keeps their entries and stages them again in order (R289). -/
def restage (s : State) : State :=
  syncStaging (((refsOf s 2).filter (unreadable s)).foldl (fun s r => failRef s 2 r) s)

/-- What waits in staging programmed in its order, and one STAGING_OVERFLOW for what did not fit (R401, R294). -/
def flushStaged (s : State) : State :=
  let s := restage s
  let n := s.cave.overflow
  let s := syncStaging (s.cave.staged.foldl programNow (s.onCave fun c => { c with staged := [], overflow := 0 }))
  if n = 0 then s else raise s 116 evStagingOverflow (w32 n) 0 0

/-! ## Memory failures (R407 to R409) -/

/-- Codes of the Cave modes (R408). -/
def CaveMode.code : CaveMode → Nat
  | .normal => 0 | .degraded => 1 | .volatile => 2

/-- A change of the Cave's mode (R408). -/
def setCaveMode (s : State) (m : CaveMode) : State :=
  let old := s.cave.mode
  if old = m then s
  else
    let s := s.onCave fun c => { c with mode := m, everVolatile := c.everVolatile || m == .volatile }
    raise s 116 evCaveMode (w32 m.code) (w32 old.code) 0

/-- A record put into the failsafe area: slot 0 takes the first ever, the ring the others (R407). -/
def failsafePut (c : Cave) (r : CaveRec) : Cave :=
  match c.failsafe0 with
  | none => { c with failsafe0 := some r }
  | some _ => { c with failsafe := lastN 63 (c.failsafe ++ [r]) }

/-- The records a page failure leaves unwritten: the newest, if it lies in the page; with no successful program since the last failure, all that stand in
the page, which that failure's handling wrote. -/
def failedRecs (c : Cave) (p : Nat) : List CaveRec :=
  let inP := (c.ring.filter fun x => x.1 == p).map (·.2)
  if 0 < c.failRun then inP else match c.ring.getLast? with | some (q, r) => if q = p then [r] else [] | none => []

/-- What Rind writes and raises about a page that has failed (R408): LOG_MEM_FAULT there and in the failsafe area, and the change to DEGRADED. Its own records
end no run of failures. -/
def reportFault (s : State) (x : PageFault) : State :=
  let s := commitOpen s
  let r := newRec s 116 evLogMemFault (w32 x.page) (w32 x.seq) (w32 x.bad)
  let q := s.cave.nextSeq
  let first := s.cave.failsafe0.isNone
  let s := raise s 116 evLogMemFault (w32 x.page) (w32 x.seq) (w32 x.bad)
  let s := s.onCave fun c => if x.lost ∧ ¬ first then c else failsafePut c { r with seq := q }
  let s := if x.lost then raise s 116 evCaveMode 1 0 0 else s
  s.onCave fun c => { c with failRun := x.run }

/-- The page failures of a row reported (R408, R515). -/
def reportFaults (s : State) : State := s.cave.faultsDue.foldl reportFault (s.onCave fun c => { c with faultsDue := [] })

/-- An NVM-A page of the Cave fails (R408): it is mapped out, what failed is programmed again with the same SEQ, and LOG_MEM_FAULT is written there and to the
failsafe area. -/
def pageFault (p : Nat) (s : State) : State :=
  let c := s.cave
  if c.mode ≠ .normal ∨ c.badPages.contains p then s
  else
    let again := failedRecs c p
    let seq := match again with | r :: _ => r.seq | [] => c.nextSeq
    let c := mapOut p seq { c with ring := c.ring.filter fun x => !(x.1 == p && again.contains x.2), nextSeq := seq }
    reportFaults (s.onCave fun _ => again.foldl programRec c)

/-- The failsafe area or the bad-page map fails (R408): VOLATILE, with the record that failed kept. -/
def failsafeFault (s : State) : State :=
  let c := s.cave
  if c.mode = .volatile then s
  else
    let last := if c.mode = .degraded then c.failsafe.getLast?.toList else []
    setCaveMode (syncStaging (s.onCave fun c => { c with volatileRing := last, failsafe := if last.isEmpty then c.failsafe else c.failsafe.dropLast })) .volatile

/-! ## Operating counters (R398 to R400) -/

/-- The 14 bytes of a counter slot before its CRC (R400). -/
def counterBody (opsec cycle no : Nat) : List Byte := toLe opsec 4 ++ toLe (cycle % 16777216) 4 ++ toLe no 4 ++ [0, 0]

/-- The 16 bytes of a counter slot (R400). -/
def counterBytes (opsec cycle no : Nat) : List Byte := counterBody opsec cycle no ++ toLe (crc16 (counterBody opsec cycle no)).toNat 2

/-- A counter slot is valid: written, with the right CRC (R400). -/
def counterValid (b : List Byte) : Bool := b.length == 16 && leAt b 14 2 == (crc16 (b.take 14)).toNat

/-- WRITE_NO of a counter slot (R400). -/
def writeNo (b : List Byte) : Nat := leAt b 8 4

/-- The valid counter slot with the highest WRITE_NO, with its number (R400). -/
def newestCounter (n : Nvm) : Option (Nat × List Byte) :=
  (n.counters.filter fun p => counterValid p.2).foldl (fun best p =>
    match best with
    | some q => if writeNo q.2 < writeNo p.2 then some p else best
    | none => some p) none

/-- OPSEC and CYCLE of the newest counter slot; 0 where none has been written (R398, R399). -/
def savedOpsec (n : Nvm) : Nat := (newestCounter n).elim 0 fun p => leAt p.2 0 4
def savedCycle (n : Nvm) : Nat := (newestCounter n).elim 0 fun p => leAt p.2 4 4 % 16777216

/-- Rind writes the next operating-counter slot in rotation, with WRITE_NO one higher (R400). -/
def writeCounters (s : State) : State :=
  (s.onNvm fun n =>
    let k := (newestCounter n).elim 0 fun p => (p.1 + 1) % 16
    let no := (newestCounter n).elim 1 fun p => writeNo p.2 + 1
    { n with counters := Tbl.put n.counters k (counterBytes s.power.opsec s.power.cycle no) }).onPower fun p => { p with ctrAt := s.power.opsec }

/-- OPERATING_COUNTER_WRITE: every 10 minutes (R400); not in PARK and not during a brownout warning (R443, R451). -/
def operatingCounterOp (s : State) : State :=
  if s.fw.rind = .running ∧ ¬ s.power.brownout ∧ s.power.mode ≠ .park ∧ s.power.ctrAt + 600 ≤ s.power.opsec then writeCounters s else s

/-- The valid records of every store of the Cave, whatever its mode (R396, R400, R408). -/
def storedRecs (c : Cave) : List CaveRec := (c.ring.map (·.2) ++ c.failsafe0.toList ++ c.failsafe ++ c.volatileRing).filter (·.valid)

/-- The record with the highest SEQ (R395, R400). -/
def newestRec (rs : List CaveRec) : Option CaveRec :=
  rs.foldl (fun best r =>
    match best with
    | some q => if q.seq < r.seq then some r else best
    | none => some r) none

/-- OPSEC after a boot (R400): that of the newest counter slot, and above that of the newest valid record of any store. -/
def restoredOpsec (s : State) : Nat :=
  match newestRec (storedRecs s.cave) with
  | some r => Nat.max (savedOpsec s.nvm) (r.opsec + 1)
  | none => savedOpsec s.nvm

/-! ## Refresh (R516) -/

/-- NVM_REFRESH: one page of a refresh pass, 60 s after the last; a pass begins every 157,788,000 s of OPSEC (R516). -/
def nvmRefreshOp (s : State) : State :=
  if s.fw.rind ≠ .running ∨ s.power.brownout ∨ s.power.mode = .park ∨ s.power.opsec < s.power.refreshAt + 60 then s
  else
    let s := s.onPower fun p => { p with refreshAt := s.power.opsec }
    if s.nvm.refreshCursor < 2304 then s.onNvm fun n => { n with refreshCursor := n.refreshCursor + 1 }
    else if s.nvm.refreshOpsec + 157788000 ≤ s.power.opsec then s.onNvm fun n => { n with refreshOpsec := s.power.opsec, refreshCursor := 1 }
    else s

end Sys2Proof.Machine
end

