-- ==== Sys2Proof/Machine/Crypto.lean ====
section
/-!
DEFINITION. Machine/Crypto.lean: SHA-256 and the check of an ECDSA P-256 signature, which the manual names (R164, R335, R412, R413, R415, R433) and does
not define: as FIPS 180-4 and FIPS 186-4 define them (PRESUMED, log entry 10).
-/

namespace Sys2Proof.Machine

/-! ## SHA-256 -/

/-- The 64 round constants. -/
def shaRounds : List Nat :=
  [0x428a2f98, 0x71374491, 0xb5c0fbcf, 0xe9b5dba5, 0x3956c25b, 0x59f111f1, 0x923f82a4, 0xab1c5ed5,
   0xd807aa98, 0x12835b01, 0x243185be, 0x550c7dc3, 0x72be5d74, 0x80deb1fe, 0x9bdc06a7, 0xc19bf174] ++
  [0xe49b69c1, 0xefbe4786, 0x0fc19dc6, 0x240ca1cc, 0x2de92c6f, 0x4a7484aa, 0x5cb0a9dc, 0x76f988da,
   0x983e5152, 0xa831c66d, 0xb00327c8, 0xbf597fc7, 0xc6e00bf3, 0xd5a79147, 0x06ca6351, 0x14292967] ++
  [0x27b70a85, 0x2e1b2138, 0x4d2c6dfc, 0x53380d13, 0x650a7354, 0x766a0abb, 0x81c2c92e, 0x92722c85,
   0xa2bfe8a1, 0xa81a664b, 0xc24b8b70, 0xc76c51a3, 0xd192e819, 0xd6990624, 0xf40e3585, 0x106aa070] ++
  [0x19a4c116, 0x1e376c08, 0x2748774c, 0x34b0bcb5, 0x391c0cb3, 0x4ed8aa4a, 0x5b9cca4f, 0x682e6ff3,
   0x748f82ee, 0x78a5636f, 0x84c87814, 0x8cc70208, 0x90befffa, 0xa4506ceb, 0xbef9a3f7, 0xc67178f2]

/-- The eight words of a hash state. -/
structure ShaState where
  a : Word32
  b : Word32
  c : Word32
  d : Word32
  e : Word32
  f : Word32
  g : Word32
  h : Word32

/-- The state before the first block. -/
def shaStart : ShaState :=
  ⟨0x6a09e667, 0xbb67ae85, 0x3c6ef372, 0xa54ff53a, 0x510e527f, 0x9b05688c, 0x1f83d9ab, 0x5be0cd19⟩

/-- One round with its constant and message word. -/
def shaRound (s : ShaState) (k : Nat) (w : Word32) : ShaState :=
  let t1 := s.h + (s.e.rotateRight 6 ^^^ s.e.rotateRight 11 ^^^ s.e.rotateRight 25) + ((s.e &&& s.f) ^^^ (~~~ s.e &&& s.g)) + w32 k + w
  let t2 := (s.a.rotateRight 2 ^^^ s.a.rotateRight 13 ^^^ s.a.rotateRight 22) + ((s.a &&& s.b) ^^^ (s.a &&& s.c) ^^^ (s.b &&& s.c))
  ⟨t1 + t2, s.a, s.b, s.c, s.d + t1, s.e, s.f, s.g⟩

/-- The next message word, from the last sixteen, newest first. -/
def shaNext (ws : List Word32) : Word32 :=
  let x := ws.getD 14 0
  let y := ws.getD 1 0
  (y.rotateRight 17 ^^^ y.rotateRight 19 ^^^ y >>> 10) + ws.getD 6 0 + (x.rotateRight 7 ^^^ x.rotateRight 18 ^^^ x >>> 3) + ws.getD 15 0

/-- The message schedule extended by `n` words, newest first. -/
def shaExtend : Nat → List Word32 → List Word32
  | 0, ws => ws
  | n + 1, ws => shaExtend n (shaNext ws :: ws)

/-- One block of 64 bytes hashed. -/
def shaBlock (s : ShaState) (block : List Byte) : ShaState :=
  let first := ((List.range 16).map fun i => w32 (beAt block (4 * i) 4)).reverse
  let t := (shaRounds.zip (shaExtend 48 first).reverse).foldl (fun s x => shaRound s x.1 x.2) s
  ⟨s.a + t.a, s.b + t.b, s.c + t.c, s.d + t.d, s.e + t.e, s.f + t.f, s.g + t.g, s.h + t.h⟩

/-- `n` blocks hashed in turn. -/
def shaBlocks : Nat → List Byte → ShaState → ShaState
  | 0, _, s => s
  | n + 1, bs, s => shaBlocks n (bs.drop 64) (shaBlock s (bs.take 64))

/-- `n` big-endian bytes of a number. -/
def toBe (v n : Nat) : List Byte := (toLe v n).reverse

/-- A message padded to whole blocks: a 1 bit, zeros, its length in bits. -/
def shaPadded (bs : List Byte) : List Byte :=
  bs ++ 0x80 :: List.replicate ((119 - bs.length % 64) % 64) 0 ++ toBe (8 * bs.length) 8

/-- SHA-256 of a byte string, 32 bytes. -/
def sha256 (bs : List Byte) : List Byte :=
  let p := shaPadded bs
  let s := shaBlocks (p.length / 64) p shaStart
  [s.a, s.b, s.c, s.d, s.e, s.f, s.g, s.h].flatMap fun w => toBe w.toNat 4

/-! ## ECDSA over P-256 -/

/-- The field of the curve, the order of its group, the constant b. -/
abbrev curveP : Nat := 0xffffffff00000001000000000000000000000000ffffffffffffffffffffffff
abbrev curveN : Nat := 0xffffffff00000000ffffffffffffffffbce6faada7179e84f3b9cac2fc632551
abbrev curveB : Nat := 0x5ac635d8aa3a93e7b3ebbd55769886bc651d06b0cc53b0f63bce3c3e27d2604b

/-- The base point. -/
def curveG : Option (Nat × Nat) :=
  some (0x6b17d1f2e12c4247f8bce6e563a440f277037d812deb33a0f4a13945d898c296,
        0x4fe342e2fe1a7f9b8ee7eb4a7c0f9e162bce33576b315ececbb6406837bf51f5)

/-- A power modulo `m`, for an exponent below 2²⁵⁶. -/
def powMod (x e m : Nat) : Nat := (List.range 256).foldr (fun k acc => let q := acc * acc % m; if e.testBit k then q * x % m else q) 1

/-- The inverse modulo a prime. -/
def invMod (x m : Nat) : Nat := powMod x (m - 2) m

/-- The sum of two points; none is the point at infinity. -/
def curveAdd (a b : Option (Nat × Nat)) : Option (Nat × Nat) :=
  match a, b with
  | none, q => q
  | p, none => p
  | some (x1, y1), some (x2, y2) =>
    if x1 = x2 ∧ (y1 + y2) % curveP = 0 then none
    else
      let l := if x1 = x2 then (3 * x1 * x1 + (curveP - 3)) * invMod (2 * y1 % curveP) curveP % curveP
        else (y2 + curveP - y1) * invMod ((x2 + curveP - x1) % curveP) curveP % curveP
      let x3 := (l * l + 2 * curveP - x1 - x2) % curveP
      some (x3, (l * (x1 + curveP - x3) + curveP - y1) % curveP)

/-- A multiple of a point, for a factor below 2²⁵⁶. -/
def curveMul (k : Nat) (p : Option (Nat × Nat)) : Option (Nat × Nat) :=
  (List.range 256).foldr (fun i acc => let d := curveAdd acc acc; if k.testBit i then curveAdd d p else d) none

/-- A point lies on the curve. -/
def onCurve (x y : Nat) : Bool :=
  decide (x < curveP ∧ y < curveP) && y * y % curveP == (x * x * x + (curveP - 3) * x + curveB) % curveP

/-- A signature verifies (R164): public key X then Y, digest, signature r then s, each 32 bytes, big-endian. -/
def ecdsaVerifies (key digest sig : List Byte) : Bool :=
  let x := beAt key 0 32
  let y := beAt key 32 32
  let r := beAt sig 0 32
  let s := beAt sig 32 32
  let w := invMod s curveN
  onCurve x y && decide (1 ≤ r ∧ r < curveN ∧ 1 ≤ s ∧ s < curveN)
    && match curveAdd (curveMul (beAt digest 0 32 * w % curveN) curveG) (curveMul (r * w % curveN) (some (x, y))) with
       | some q => q.1 % curveN == r
       | none => false

end Sys2Proof.Machine
end

