-- ==== Sys2Proof/Machine/Profile.lean ====
section
/-!
DEFINITION. Machine/Profile.lean: the harness profile: its bundle, Rind's checks, what applying it changes (R44, R45, R68, R154, R155, R160 to R167, R189,
R222 to R224, R413, R414).
-/

namespace Sys2Proof.Machine

/-! ## The bundle (R160 to R164, R223) -/

/-- A section of a bundle: type, record count, offset. -/
structure Section where
  type : Nat
  count : Nat
  offset : Nat
deriving DecidableEq, Repr

/-- The section table (R160). -/
def sections (b : List Byte) : List Section :=
  (List.range (leAt b 6 2)).map fun i => { type := leAt b (32 + 8 * i) 2, count := leAt b (34 + 8 * i) 2, offset := leAt b (36 + 8 * i) 4 }

/-- The section of a type. -/
def sectionOf (b : List Byte) (ty : Nat) : Option Section := (sections b).find? fun x => x.type == ty

/-- A record of a section: its first byte in the bundle. -/
def recordAt (b : List Byte) (ty size i : Nat) : Nat := match sectionOf b ty with | some x => x.offset + size * i | none => b.length

/-- Record count of a section, 0 where it is absent. -/
def countOf (b : List Byte) (ty : Nat) : Nat := match sectionOf b ty with | some x => x.count | none => 0

/-- TOTAL_LEN of a bundle (R160). -/
def totalLen (b : List Byte) : Nat := leAt b 8 4

/-- The trailer's public key and signature, and the digest that is signed (R164). -/
def bundleKey (b : List Byte) : List Byte := slice b (totalLen b - 128) 64
def bundleSig (b : List Byte) : List Byte := slice b (totalLen b - 64) 64
def bundleDigest (b : List Byte) : List Byte := sha256 (b.take (totalLen b - 64))

/-- A signed 16-bit or 32-bit field. -/
def sAt (b : List Byte) (i n : Nat) : Int := signed (8 * n) (leAt b i n)

/-- A UNITS record parsed from byte `o` on (R162). -/
def parseUnit (b : List Byte) (o : Nat) : UnitRec :=
  let fl := byteAt b (o + 2)
  { clamp := bit fl 0, parkKeep := bit fl 1, busCtrl := bit fl 2, damageOverride := bit fl 3, bootOn := bit fl 4, xtripOff := bit fl 5, limpOn := bit fl 6,
    shedClass := byteAt b (o + 3), seatMap := byteAt b (o + 4), protGain := byteAt b (o + 5), escalation := byteAt b (o + 6), ntcWire := byteAt b (o + 7),
    ntcCase := byteAt b (o + 8), retryMax := byteAt b (o + 9), alpha := leAt b (o + 10) 2, scTh := leAt b (o + 12) 4, ilimMax := leAt b (o + 16) 4,
    faultTimeMax := leAt b (o + 20) 4, iRated := leAt b (o + 24) 4, eFetMax := leAt b (o + 28) 4, ltBound := leAt b (o + 32) 4,
    tWireMax := sAt b (o + 36) 2, wireMargin := leAt b (o + 38) 2, wireRearm := sAt b (o + 40) 2, ambOffset := sAt b (o + 42) 2, ambFail := sAt b (o + 44) 2,
    wireStart := leAt b (o + 46) 2, wireRho20 := leAt b (o + 48) 4, wireLen := leAt b (o + 52) 4, wireCC := leAt b (o + 56) 4, wireCI := leAt b (o + 60) 4,
    wireRCI := leAt b (o + 64) 4, wireRIA := leAt b (o + 68) 4, ltClear := leAt b (o + 72) 2, rdsonTc := leAt b (o + 74) 2, rdson25 := leAt b (o + 76) 4,
    rth1 := leAt b (o + 80) 4, rth2 := leAt b (o + 84) 4, rth3 := leAt b (o + 88) 4, tau1 := leAt b (o + 92) 4, tau2 := leAt b (o + 96) 4,
    tau3 := leAt b (o + 100) 4, tjMax := sAt b (o + 104) 2, tjRearm := sAt b (o + 106) 2, caseOffset := sAt b (o + 108) 2, caseFail := sAt b (o + 110) 2,
    pRamp := leAt b (o + 112) 4, qg := leAt b (o + 116) 2, qsw := leAt b (o + 118) 2, ePulse := leAt b (o + 120) 4, shunt := leAt b (o + 124) 4,
    cNom := leAt b (o + 128) 4, iRNom := sAt b (o + 132) 4, vClamp := leAt b (o + 136) 4, lLoad := leAt b (o + 140) 4, eClamp := leAt b (o + 144) 4,
    vdsRating := leAt b (o + 148) 4, fetStart := leAt b (o + 152) 2 }

/-- A PARALLEL entry (R163): hoop number and the members in its first COUNT places. -/
def parseParallel (b : List Byte) (o : Nat) : Nat × List Nat := (byteAt b o, (List.range (byteAt b (o + 1))).map fun i => byteAt b (o + 4 + i))

/-- KIND_PARAMS records (R223). -/
def parseFeed (b : List Byte) (o : Nat) : FeedParams :=
  { ovOff := bit (byteAt b (o + 2)) 0, autoMate := bit (byteAt b (o + 2)) 1, vinUv := leAt b (o + 4) 4, vinOv := leAt b (o + 8) 4,
    voutUv := leAt b (o + 12) 4, irevMax := leAt b (o + 16) 4, rdson25R := leAt b (o + 20) 4, tRecover := leAt b (o + 24) 2 }
def parseReg (b : List Byte) (o : Nat) : RegParams :=
  { forcePwm := bit (byteAt b (o + 2)) 0, voutNom := leAt b (o + 4) 4, voutMin := leAt b (o + 8) 4, voutMax := leAt b (o + 12) 4,
    vinMin := leAt b (o + 16) 4, lInd := leAt b (o + 20) 4, cOut := leAt b (o + 24) 4, ovPm := leAt b (o + 28) 2, comp := byteAt b (o + 30) }
def parseHold (b : List Byte) (o : Nat) : HoldParams :=
  { bank := byteAt b (o + 4), senseBank := byteAt b (o + 5), vStoreMax := leAt b (o + 8) 4, eStoreMax := leAt b (o + 12) 4,
    eReleaseMax := leAt b (o + 16) 4, iChgMax := leAt b (o + 20) 4 }

/-- A profile bundle parsed (R160 to R164). -/
def parseProfile (b : List Byte) : Profile :=
  let g := recordAt b 1 128 0
  let kp (i : Nat) := recordAt b 4 64 i
  let has := countOf b 4 = 7
  { profileId := leAt b 12 4, version := leAt b 16 4, minVersion := leAt b 20 4,
    net48 := (List.range 4).map fun i => byteAt b (g + i) == 1,
    net12Vmax := leAt b (g + 4) 4, net48Vmax := leAt b (g + 8) 4, shedMasks := (List.range 5).map fun i => byteAt b (g + 12 + i),
    fallback := byteAt b (g + 17), ntc := (List.range 8).map fun i => (leAt b (g + 20 + 8 * i) 4, leAt b (g + 24 + 8 * i) 2),
    units := leafNums.map fun u => parseUnit b (recordAt b 2 160 u),
    parallel := (List.range (countOf b 3)).map fun i => parseParallel b (recordAt b 3 20 i),
    feeds := if has then (List.range 4).map fun i => parseFeed b (kp i) else [],
    regs := if has then [parseReg b (kp 4), parseReg b (kp 5)] else [],
    hold := if has then parseHold b (kp 6) else {},
    keyRotate := if countOf b 5 = 1 then some (slice b (recordAt b 5 32 0) 32) else none,
    digest := bundleDigest b }

/-! ## Check 0x01 (R160, R165, R224) -/

/-- Record size and permitted counts of a section type (R160). -/
def sectionShape (ty : Nat) : Option (Nat × Nat × Nat) :=
  match ty with
  | 1 => some (128, 1, 1)
  | 2 => some (160, 71, 71)
  | 3 => some (20, 0, 32)
  | 4 => some (64, 7, 7)
  | 5 => some (32, 0, 1)
  | _ => none

/-- Bytes that must be 0. -/
def zeros (b : List Byte) (i n : Nat) : Bool := (List.range n).all fun k => byteAt b (i + k) == 0

/-- The header and section table of a bundle stand (R160): magic, format, length within `limit`, each section's type, count and place. -/
def bundleShape (b : List Byte) (magic maxLen limit maxSections : Nat) (shape : Nat → Option (Nat × Nat × Nat)) : Bool :=
  let n := totalLen b
  leAt b 0 4 == magic && leAt b 4 2 == 1 && decide (2 ≤ leAt b 6 2 ∧ leAt b 6 2 ≤ maxSections) && decide (160 ≤ n ∧ n ≤ maxLen ∧ n ≤ limit)
    && zeros b 24 8 && distinct ((sections b).map (·.type))
    && (sections b).all fun x => match shape x.type with
        | some (size, lo, hi) => decide (lo ≤ x.count ∧ x.count ≤ hi ∧ 32 + 8 * leAt b 6 2 ≤ x.offset ∧ x.offset + size * x.count + 128 ≤ n)
        | none => false

/-- KIND of a leaf in a record (R162). -/
def kindCode (u : Nat) : Nat := (leafKind u).code

/-- FLAGS bits that KIND_PARAMS gives a kind (R223). -/
def kpFlags (u : Nat) : Nat := if u < 68 then 4 else if u < 70 then 2 else 1

/-- The reserved bytes of a KIND_PARAMS record (R223). -/
def kpReserved (b : List Byte) (u o : Nat) : Bool :=
  zeros b (o + 3) 1 && (if u < 68 then zeros b (o + 26) 38 else if u < 70 then zeros b (o + 31) 33 else zeros b (o + 6) 2 && zeros b (o + 24) 40)

/-- Check 0x01: none where it passes, else the unit of the record that fails, 0xFF for the rest (R165, R224). -/
def check01 (b : List Byte) (limit : Nat) : Option Nat :=
  if !bundleShape b 0x50485A41 262144 limit 8 sectionShape || countOf b 1 != 1 || countOf b 2 != 71 then some 0xFF
  else
    let g := recordAt b 1 128 0
    if !(zeros b (g + 18) 2 && zeros b (g + 84) 44 && (List.range 8).all fun i => zeros b (g + 26 + 8 * i) 2) then some 0xFF
    else match leafNums.find? fun u =>
        let o := recordAt b 2 160 u
        byteAt b o != u || byteAt b (o + 1) != kindCode u || bit (byteAt b (o + 2)) 7 || !zeros b (o + 154) 6 with
      | some u => some u
      | none =>
        if (List.range (countOf b 3)).any fun i => !zeros b (recordAt b 3 20 i + 2) 2 then some 0xFF
        else if countOf b 4 = 0 then none
        else ((List.range 7).map (· + 64)).find? fun u =>
          let o := recordAt b 4 64 (u - 64)
          byteAt b o != u || byteAt b (o + 1) != kindCode u || decide (kpFlags u ≤ byteAt b (o + 2)) || !kpReserved b u o

/-! ## Check 0x04 (R162, R207, R222 to R224) -/

/-- A value between bounds. -/
def within (x lo hi : Nat) : Bool := decide (lo ≤ x ∧ x ≤ hi)
def withinI (x lo hi : Int) : Bool := decide (lo ≤ x ∧ x ≤ hi)

/-- A seat or thermistor number, or none. -/
def mapField (x : Nat) : Bool := decide (x < 8) || x == 255

/-- The fields every kind carries are in range (R162, R222). -/
def commonOk (r : UnitRec) : Bool :=
  within r.shedClass 0 7 && mapField r.seatMap && within r.protGain 0 3 && mapField r.ntcWire && within r.retryMax 0 15 && within r.alpha 1000 6000
    && decide (100 ≤ r.ilimMax) && within r.faultTimeMax 1 2000000 && within r.iRated 100 r.ilimMax && decide (1 ≤ r.ltBound)
    && withinI r.tWireMax 960 4000 && within r.wireMargin 0 800 && withinI r.ambOffset (-320) 960 && withinI r.ambFail (-640) 2400
    && within r.wireStart 0 960 && within r.wireRho20 100 1000000 && within r.wireLen 1 100000 && decide (1 ≤ r.wireCC) && decide (1 ≤ r.wireCI)
    && decide (1 ≤ r.wireRCI) && decide (1 ≤ r.wireRIA) && within r.ltClear 20 10000 && within r.shunt 1 100000

/-- The FET fields are in range (R162, R222). -/
def fetOk (r : UnitRec) : Bool :=
  mapField r.ntcCase && within r.rdsonTc 0 10000 && within r.rdson25 1 1000000 && decide (1 ≤ r.rth1) && decide (1 ≤ r.rth2) && decide (1 ≤ r.rth3)
    && within r.tau1 10 10000000 && within r.tau2 10 10000000 && within r.tau3 10 10000000 && decide (r.tau1 < r.tau2 ∧ r.tau2 < r.tau3)
    && withinI r.tjMax 1600 3200 && decide (r.tjRearm < r.tjMax) && within r.eFetMax 1 100000 && within r.pRamp 1000 1000000
    && within r.fetStart 0 960 && withinI r.caseOffset (-320) 960 && withinI r.caseFail (-640) 2800

/-- The FET fields are 0. -/
def fetZero (r : UnitRec) : Bool :=
  r.ntcCase == 0 && r.rdsonTc == 0 && r.rdson25 == 0 && r.rth1 == 0 && r.rth2 == 0 && r.rth3 == 0 && r.tau1 == 0 && r.tau2 == 0 && r.tau3 == 0
    && r.tjMax == 0 && r.tjRearm == 0 && r.eFetMax == 0 && r.pRamp == 0 && r.ePulse == 0 && r.vdsRating == 0 && r.fetStart == 0 && r.caseOffset == 0
    && r.caseFail == 0

/-- The gate charge fields are in range (R162). -/
def gateOk (r : UnitRec) : Bool := within r.qg 1 400 && within r.qsw 0 r.qg

/-- The clamp fields and ESCALATION are 0 (R222). -/
def clampZero (r : UnitRec) : Bool := !r.clamp && r.escalation == 0 && r.vClamp == 0 && r.lLoad == 0 && r.eClamp == 0

/-- SC_TH is in range, and bounds ILIM_MAX (R162). -/
def scOk (r : UnitRec) : Bool := within r.scTh 1000 500000 && decide (r.ilimMax ≤ r.scTh)

/-- A UNITS record is within the ranges of its kind (R162, R206, R221, R222). -/
def unitOk (u : Nat) (r : UnitRec) : Bool :=
  commonOk r && match leafKind u with
    | .feed => scOk r && fetOk r && gateOk r && within r.cNom 0 4000000 && clampZero r && r.shedClass == 0 && r.seatMap == 255
    | .regulator => r.scTh == 0 && fetZero r && r.qg == 0 && r.qsw == 0 && r.cNom == 0 && r.iRNom == 0 && clampZero r
    | .hold => r.scTh == 0 && fetOk r && r.qg == 0 && r.qsw == 0 && within r.cNom 0 4000000 && r.iRNom == 0 && clampZero r && !r.parkKeep
    | _ => scOk r && fetOk r && gateOk r && within r.cNom 0 4000000 && within r.escalation 0 2
        && (if r.clamp then within r.vClamp 20000 60000 else r.vClamp == 0 && r.lLoad == 0 && r.eClamp == 0)

/-- KIND_PARAMS of a feed are in range (R223). -/
def feedOk (n : Nat) (f : FeedParams) : Bool :=
  (if n < 2 then within f.vinUv 4000 12000 else within f.vinUv 16000 40000) && decide (f.vinUv < f.vinOv ∧ f.vinOv ≤ 65000) && decide (f.voutUv < f.vinOv)
    && within f.irevMax 100 20000 && within f.rdson25R 1 1000000 && within f.tRecover 1 10000

/-- KIND_PARAMS of a regulator are in range (R223, R224). -/
def regOk (r : RegParams) : Bool :=
  within r.voutNom 800 5500 && within r.voutMin 800 r.voutNom && within r.voutMax r.voutNom 5500 && within r.vinMin 4500 20000 && decide (1 ≤ r.lInd)
    && decide (1 ≤ r.cOut) && within r.ovPm 1050 1200 && within r.comp 0 7 && (!r.forcePwm || decide (3200 ≤ r.voutNom))

/-- KIND_PARAMS of HOLD are in range (R207, R223, R224). -/
def holdOk (p : Profile) : Bool :=
  let h := p.hold
  within h.bank 0 3 && within h.senseBank 0 3 && !(p.net48.getD h.senseBank false) && within h.vStoreMax 6500 16000
    && decide (h.vStoreMax + 2000 ≤ if p.net48.getD h.bank false then 48000 else 13500) && decide (1 ≤ h.eStoreMax) && within h.eReleaseMax 1 h.eStoreMax
    && within h.iChgMax 100 5000

/-- Check 0x04 (R161, R162, R222 to R224). -/
def check04 (b : List Byte) (p : Profile) : Option Nat :=
  let g := recordAt b 1 128 0
  if (List.range 4).any (fun i => decide (1 < byteAt b (g + i))) || decide (2 < p.fallback) then some 0xFF
  else match leafNums.find? fun u => !unitOk u (p.units.getD u {}) with
    | some u => some u
    | none =>
      if countOf b 4 = 0 then none
      else ((List.range 7).map (· + 64)).find? fun u =>
        if u < 68 then !feedOk (u - 64) (p.feeds.getD (u - 64) {}) else if u < 70 then !regOk (p.regs.getD (u - 68) {}) else !holdOk p

/-! ## Checks 0x05 to 0x0A -/

/-- The headroom of the protection gain, nV (R102). -/
def headroom (g : Nat) : Nat := [112500000, 56250000, 28125000, 14040000].getD g 0

/-- Check 0x05 (R102, R224). -/
def check05 (p : Profile) : Option Nat :=
  leafNums.find? fun u =>
    let r := p.units.getD u {}
    match leafKind u with
    | .regulator => decide (90000000 < r.ilimMax * r.shunt)
    | .hold => false
    | _ => decide (headroom r.protGain < r.scTh * r.shunt)

/-- A list strictly rises. -/
def rising : List Nat → Bool
  | x :: y :: l => decide (x < y) && rising (y :: l)
  | _ => true

/-- A member agrees with the first member of its hoop (R45, R133, R165). -/
def agrees (p : Profile) (a m : Nat) : Bool :=
  let x := p.units.getD a {}
  let y := p.units.getD m {}
  bankOf a == bankOf m && x.shedClass == y.shedClass && x.parkKeep == y.parkKeep && x.seatMap == y.seatMap && x.shunt == y.shunt && x.protGain == y.protGain

/-- A PARALLEL entry obeys R45 and R163 on its own. -/
def parallelOk (b : List Byte) (p : Profile) (i : Nat) : Bool :=
  let o := recordAt b 3 20 i
  let x := p.parallel.getD i (0, [])
  within x.1 128 254 && within x.2.length 2 16 && rising x.2 && x.2.all (fun m => decide (m < 64))
    && ((List.range 16).drop x.2.length).all (fun k => byteAt b (o + 4 + k) == 255) && x.2.all (agrees p (x.2.headD 0))

/-- Check 0x06 (R45, R133, R163). It names no unit. DESIGN CHOICE (log entry 89). -/
def check06 (b : List Byte) (p : Profile) : Option Nat :=
  if (List.range p.parallel.length).any (fun i => !parallelOk b p i) || !distinct (p.parallel.map (·.1)) || !distinct (p.parallel.flatMap (·.2)) then some 0xFF
  else none

/-- Check 0x07 (R142). -/
def check07 (p : Profile) : Option Nat := leafNums.find? fun u => (p.units.getD u {}).parkKeep && decide ((p.units.getD u {}).faultTimeMax < 2000)

/-- The steady conductor temperature at a current in A and an ambient in °C, none where the wire has none (R147, R165). -/
def steadyTemp (r : UnitRec) (i ta : Rat) : Option Rat :=
  let x := i * i * (r.wireRho20 : Rat) / 1000000
  let a := (r.alpha : Rat) / 1000000
  let rt := ((r.wireRCI + r.wireRIA : Nat) : Rat) / 1000
  if 1 ≤ x * a * rt then none else some (ta + x * (1 + a * (ta - 20)) * rt / (1 - x * a * rt))

/-- Check 0x08 (R165). -/
def check08 (p : Profile) : Option Nat :=
  leafNums.find? fun u =>
    let r := p.units.getD u {}
    let trip := r.tWireMax - r.wireMargin
    decide (trip ≤ r.wireRearm) || decide (r.wireCC * r.wireRCI < 10000) || decide (r.wireCI * r.wireRCI < 10000) || decide (r.wireCI * r.wireRIA < 10000)
      || match steadyTemp r ((r.iRated : Rat) / 1000) ((r.ambFail : Rat) / 16) with
         | some t => decide ((trip : Rat) / 16 ≤ t)
         | none => true

/-- The highest voltage the MOSFET of a leaf can see, mV (R165). -/
def highestMv (p : Profile) (u : Nat) : Nat :=
  match leafKind u with
  | .feed => if u < 66 then p.net12Vmax else p.net48Vmax
  | .hold => Nat.max p.net12Vmax p.hold.vStoreMax
  | _ => if p.net48.getD (bankOf u) false then p.net48Vmax else p.net12Vmax

/-- The top of a channel's normal drain range, mV (R70). -/
def rangeTop (p : Profile) (ch : Nat) : Nat := if p.net48.getD (bankOf ch) false then 58000 else 36000

/-- V_CL at a drain voltage, mV (R87). -/
def clampMv (vClamp vd : Nat) : Nat := Nat.min (Nat.max vClamp (vd + 1000)) (vd + 30000)

/-- Check 0x09 (R101, R165). -/
def check09 (p : Profile) : Option Nat :=
  leafNums.find? fun u =>
    let r := p.units.getD u {}
    leafKind u != .regulator && (decide (r.ePulse < r.eFetMax) || decide (r.vdsRating < highestMv p u)
      || (leafKind u == .channel && r.clamp && decide (r.vdsRating < clampMv r.vClamp (rangeTop p u) + 5000)))

/-- E_clamp of a CLAMP unit, mJ (R154). -/
def clampEnergy (p : Profile) (u : Nat) : Rat :=
  let r := p.units.getD u {}
  let top : Rat := (rangeTop p u : Rat)
  let v : Rat := (clampMv r.vClamp (rangeTop p u) : Rat)
  (r.lLoad : Rat) * (r.scTh : Rat) * (r.scTh : Rat) / 2000000000 * v / (v - top)

/-- Check 0x0A (R154). -/
def check0A (p : Profile) : Option Nat :=
  leafNums.find? fun u => leafKind u == .channel && (p.units.getD u {}).clamp && decide (((p.units.getD u {}).eClamp : Rat) < clampEnergy p u)

/-- The signature check of a bundle against MAKER_KEY_HASH; while it is blank, a profile is checked against its own key (R165, R413). At a boot, `rotated` is
the hash the bundle itself set: it applies to every later profile, not to this one. DESIGN CHOICE (log entry 87). -/
def signed02 (makerKey : Option (List Byte)) (blankOk : Bool) (rotated : Option (List Byte)) (b : List Byte) : Bool :=
  (match makerKey with | some h => sha256 (bundleKey b) == h || rotated == some h | none => blankOk)
    && ecdsaVerifies (bundleKey b) (bundleDigest b) (bundleSig b)

/-- Rind's checks of a profile bundle in their order (R165), at a load or at a boot (R167): code, unit and status of the first that fails. -/
def profileCheck (n : Nvm) (b : List Byte) (limit : Nat) (boot : Bool := false) : Option (Nat × Nat × Nat) :=
  let p := parseProfile b
  match check01 b limit with
  | some u => some (0x01, u, stRange)
  | none =>
    if !signed02 n.makerKey true (if boot then p.keyRotate else none) b then some (0x02, 0xFF, stAuth)
    else if p.version < n.profileFloor ∨ p.version < p.minVersion then some (0x03, 0xFF, stAuth)
    else
      let rest := [(0x04, check04 b p), (0x05, check05 p), (0x06, check06 b p), (0x07, check07 p), (0x08, check08 p), (0x09, check09 p), (0x0A, check0A p)]
      rest.findSome? fun x => x.2.map fun u => (x.1, u, stRange)

/-! ## Applying a profile (R44, R61, R68, R85, R131, R139, R155, R189, R204, R205) -/

/-- The wire and FET fields of a record (R155, R162). -/
def modelFields (r : UnitRec) : UnitRec :=
  { ({} : UnitRec) with
    ntcWire := r.ntcWire, ntcCase := r.ntcCase, alpha := r.alpha, tWireMax := r.tWireMax, wireMargin := r.wireMargin, wireRearm := r.wireRearm,
    ambOffset := r.ambOffset, ambFail := r.ambFail, wireStart := r.wireStart, wireRho20 := r.wireRho20, wireLen := r.wireLen, wireCC := r.wireCC,
    wireCI := r.wireCI, wireRCI := r.wireRCI, wireRIA := r.wireRIA, rdsonTc := r.rdsonTc, rdson25 := r.rdson25, rth1 := r.rth1, rth2 := r.rth2,
    rth3 := r.rth3, tau1 := r.tau1, tau2 := r.tau2, tau3 := r.tau3, tjMax := r.tjMax, tjRearm := r.tjRearm, caseOffset := r.caseOffset,
    caseFail := r.caseFail, fetStart := r.fetStart }

/-- The larger of two held temperatures. -/
def maxI (a b : Int) : Int := if a < b then b else a

/-- Each node at the higher of its present and its power-on value (R155). -/
def raiseModels (s : State) (u : Nat) : State :=
  let e := (leafOf s u).env
  let t := ambientOf s u + sixteenth e.wireStart
  let c := caseOf s u
  onLeaf s u fun l =>
    let g := l.led
    let th1 := maxI g.th1 0
    let th2 := maxI g.th2 0
    let th3 := maxI g.th3 (sixteenth e.fetStart)
    { l with led := { g with tc := maxI g.tc t, ti := maxI g.ti t, th1 := th1, th2 := th2, th3 := th3, tj := c + th1 + th2 + th3 } }

/-- The parallel hoop that a profile gives a channel: its number and members. -/
def wiringOf (p : Profile) (u : Nat) : Option (Nat × List Nat) := p.parallel.find? fun x => x.2.contains u

/-- A leaf's profile entry differs between two profiles (R30): its record, its KIND_PARAMS or its wiring. -/
def entryChanged (old : Option Profile) (p : Profile) (u : Nat) : Bool :=
  match old with
  | none => true
  | some o =>
    o.units.getD u {} != p.units.getD u {} || wiringOf o u != wiringOf p u
      || (match leafKind u with
          | .feed => o.feeds.getD (u - 64) {} != p.feeds.getD (u - 64) {}
          | .regulator => o.regs.getD (u - 68) {} != p.regs.getD (u - 68) {}
          | .hold => o.hold != p.hold
          | _ => false)

/-- The parallel hoops that stand as the new wiring has them. -/
def keptHoop (p : Profile) (n : Nat) (h : Hoop) : Bool := p.parallel.any fun x => x.1 == n && x.2 == h.members

/-- A parallel hoop's wire model handed to its members that are not RETIRED (R147). -/
def splitWire (s : State) (h : Hoop) : State :=
  if h.parallel then
    (h.members.filter fun m => m != h.slot && (leafOf s m).st != .retired).foldl
      (fun t m => onLeaf t m fun l => { l with led := leaveWire (leafOf s h.slot).led l.led }) s
  else s

/-- A hoop removed from the table: its members are top-level, its generation advances (R30). -/
def removeHoop (s : State) (n : Nat) : State :=
  match hoopOf s n with
  | none => s
  | some h =>
    let s := splitWire s h
    bumpGen ((h.members.foldl (fun s m => setParent s m 255) s).onPress fun q => { q with hoops := Tbl.del q.hoops n }) n

/-- A parallel hoop formed by Rind (R44, R46); its members share one state from then on. -/
def formParallel (s : State) (x : Nat × List Nat) : State :=
  let slot := x.2.headD 0
  let s := setHoop s x.1 { parallel := true, members := x.2, table := [], slot := slot }
  let s := x.2.foldl (fun s m => setParent s m x.1) s
  putv s slot (vleaf s slot)

/-- The channels whose membership of a parallel hoop changes (R68). -/
def rewired (s : State) (p : Profile) : List Nat :=
  (List.range 64).filter fun c =>
    match parallelOf s c, wiringOf p c with
    | some (n, h), some x => !(n == x.1 && h.members == x.2)
    | none, none => false
    | _, _ => true

/-- The hoop table made to match the wiring of a profile (R30, R44, R68): hoops that no longer match and group hoops that contain a rewired channel are
dissolved, new ones formed. A group hoop that holds a number the wiring names is dissolved too. DESIGN CHOICE (log entry 90). -/
def rewire (s : State) (p : Profile) : State :=
  let ch := rewired s p
  let gone := (s.press.hoops.filter fun x => if x.2.parallel then !keptHoop p x.1 x.2 else (maskOf s x.1).any ch.contains).map (·.1)
  let s := gone.foldl removeHoop s
  let s := (p.parallel.filter fun x => (hoopOf s x.1).elim false fun h => !h.parallel).foldl (fun s x => dissolveHoop depth s x.1) s
  (p.parallel.filter fun x => (hoopOf s x.1).isNone).foldl (fun s x => bumpGen (formParallel s x) x.1) s

/-- The envelope registers of every leaf written from a profile, a hoop with retired members rescaled (R159, R162, R189). -/
def writeEnvelopes (s : State) (p : Profile) : State :=
  let s := leafNums.foldl (fun s u => onLeaf s u fun l => { l with env := p.units.getD u {} }) s
  (s.press.hoops.filter fun x => x.2.parallel && x.2.members.any fun m => (leafOf s m).st == .retired).foldl (fun s x => rescale s x.2) s

/-- What a changed entry resets (R85, R131, R204, R210). -/
def resetEntry (s : State) (u : Nat) : State :=
  let s := if leafKind u = .feed then recoverFeed s u else s
  let s := if u = 70 then s.onPress fun q => { q with hold := if q.hold.estimated then q.hold else { q.hold with storeCap := (leafOf s 70).env.cNom } } else s
  onLeaf s u fun l => { l with retries := 0, ramp := { l.ramp with capEst := l.env.cNom, resEst := l.env.iRNom } }

/-- Masks, gates, soft values and codes after a change of profile (R16, R139, R205, R268). -/
def settleEnvelopes (s : State) (p : Profile) : State :=
  let s := s.onPress fun q => { q with shedMasks := p.shedMasks }
  let s := leafNums.foldl (fun s u => if slotOf s u = u then lowerSoft s u else s) s
  leafNums.foldl refreshCodes s

/-- No recipe is in force: what a recipe sets stands at its defaults (R126, R293, R402, R421). -/
def clearRecipe (s : State) : State :=
  let s := s.onVat fun v => { v with quotas := [], nextPaste := 2048, nextHist := 2048, nextCap := 512 }
  (s.onCave fun c => { c with repeatWin := 1000 }).onFw fun f => { f with recipe := none }

/-- A profile applied at one tick boundary (R42, R68, R133, R155, R166): ROOT's generation advances when the entry of a top-level unit has changed, and a unit
whose SEAT_MAP has changed stays confirmed only where its new pins have been mated for 5 ms. -/
def applyProfile (p : Profile) (slot : Nat) (s : State) : State :=
  let old := s.fw.profile
  let ch := leafNums.filter (entryChanged old p)
  let hot := leafNums.filter fun u => match old with | some o => modelFields (o.units.getD u {}) != modelFields (p.units.getD u {}) | none => true
  let kept := (s.press.hoops.filter fun x => x.2.parallel && keptHoop p x.1 x.2).map (·.1)
  let s := s.onFw fun f => { f with profile := some p, profileSlot := slot }
  let s := rewire s p
  let s := writeEnvelopes s p
  let s := ch.foldl bumpGen s
  let par := kept.filter fun n => (maskOf s n).any ch.contains
  let grp := (s.press.hoops.filter fun x => !x.2.parallel && x.2.members.any fun m => ch.contains m || par.contains m).map (·.1)
  let root := if (ch.any fun u => parentOf s ((parallelOf s u).elim u (·.1)) == 255) then [255] else []
  let s := (par ++ grp ++ root).foldl bumpGen s
  let s := ch.foldl resetEntry s
  let seats := match old with | some o => leafNums.filter fun u => (o.units.getD u {}).seatMap != (p.units.getD u {}).seatMap | none => []
  let s := s.onPress fun q => { q with confirmed := q.confirmed.filter fun u => !seats.contains u || (seatsOf s u).all fun i => decide (5000 ≤ Tbl.get 0 q.mated i) }
  let s := hot.foldl raiseModels s
  let s := settleEnvelopes s p
  let s := (triggers s).foldl shedFire s
  match s.fw.recipe with
  | some r => if r.profileId = p.profileId then s else clearRecipe s
  | none => s

/-- Rind stores a checked bundle and selects it (R166, R413, R414): the other slot, the selector, the floor and the maker's key in one record. -/
def storeProfile (b : List Byte) (s : State) : State :=
  let p := parseProfile b
  let b := b.take (totalLen b)
  s.onNvm fun n =>
    let n := if n.profileSel = 0 then { n with profile1 := b, profileSel := 1 } else { n with profile0 := b, profileSel := 0 }
    { n with profileFloor := Nat.max n.profileFloor p.minVersion,
             makerKey := match p.keyRotate with
               | some h => some h
               | none => match n.makerKey with | some h => some h | none => some (sha256 (bundleKey b)) }

/-- A profile refused (R165): PROFILE_REJECT; status and RESULT. -/
def rejectProfile (s : State) (code u st : Nat) : State × Nat × Nat :=
  (raise s 117 evProfileReject (w32 code) (w32 u) 0, st, code + 256 * u)

/-- The inactive slot after a write that did not read back (R166): what it holds is free (log entry 84). -/
def spoilSlot (k : Nat) (s : State) : State :=
  s.onNvm fun n => if n.profileSel = 0 then { n with profile1 := Config.slotResidue k } else { n with profile0 := Config.slotResidue k }

/-- The first unit for which a profile would need a threshold code outside its DAC's range (R266). -/
def codeFault (p : Profile) (s : State) : Option Nat :=
  let t := applyProfile p s.fw.profileSlot s
  leafNums.find? fun u => !codesInRange t u

/-- A profile bundle delivered (R165, R166): its checks, the last of them that its slot reads back, then PROFILE_REJECT or the load and PROFILE_APPLIED;
status and RESULT. A threshold code outside the DAC's range is refused with RANGE (R266), with the check code of a field out of its range (DESIGN CHOICE, log
entry 110). -/
def loadProfile (b : List Byte) (limit : Nat) (s : State) : State × Nat × Nat :=
  match profileCheck s.nvm b limit with
  | some (code, u, st) => rejectProfile s code u st
  | none =>
    let p := parseProfile b
    match codeFault p s with
    | some u => rejectProfile s 4 u stRange
    | none =>
    let d := draw s
    let s := d.2
    if Config.slotWriteFails d.1 then rejectProfile (spoilSlot d.1 s) 0x10 0xFF stRange else
    let s := storeProfile b s
    let s := applyProfile p s.nvm.profileSel s
    (raise s 117 evProfileApplied (w32 p.profileId) (w32 p.version) 0, stOk, p.version)

/-- The operations of R366 in progress, but for one command (R366). -/
def loadRunning (s : State) (but : Nat) : Bool :=
  s.fw.handover.isSome || s.link.flights.any fun g =>
    g.id != but && g.phase != .waiting
      && (g.op == .profileLoad || g.op == .recipeLoad || (g.op == .fwStage && flag g.sub 2) || g.op == .fwActivate || g.op == .fwRollback)

/-- PROFILE_LOAD (R165, R166, R366). -/
def runProfileLoad (f : Flight) (s : State) : State :=
  if loadRunning s f.id then done s f stBusy
  else
    let r := loadProfile f.sub.data f.sub.bufLen s
    doneWith r.1 f r.2.1 (w32 r.2.2)

end Sys2Proof.Machine
end

