-- ==== Sys2Proof/Machine/Recipe.lean ====
section
/-!
DEFINITION. Machine/Recipe.lean: recipes: the bundle, Rind's and Paste's checks, applying it, RECIPE_LOAD; the release of a measurement reference in DOZE
(R126, R241, R292 to R295, R413, R414, R417, R421 to R423).
-/

namespace Sys2Proof.Machine

/-! ## The bundle (R421, R422) -/

/-- Record size and counts of a recipe section (R421). -/
def recipeShape (ty : Nat) : Option (Nat × Nat × Nat) :=
  if ty = 0x0101 ∨ ty = 0x0107 then some (16, 1, 1)
  else if ty = 0x0103 then some (8, 1, 1)
  else if ty = 0x0102 ∨ ty = 0x0105 then some (8, 0, 65535)
  else if ty = 0x0104 ∨ ty = 0x0106 then some (16, 0, 65535)
  else none

/-- The first bytes of a section's records. -/
def recordsOf (b : List Byte) (ty size : Nat) : List Nat := (List.range (countOf b ty)).map (recordAt b ty size)

/-- The reserved fields of a recipe's records are 0 (R7, R280, R421, R422). -/
def recipeReserved (b : List Byte) : Bool :=
  (recordsOf b 0x0102 8).all (fun o => zeros b (o + 1) 1)
    && (recordsOf b 0x0104 16).all (fun o => decide (byteAt b (o + 2) < 32) && decide (byteAt b (o + 3) < 64) && zeros b (o + 12) 4)
    && (recordsOf b 0x0105 8).all (fun o => zeros b (o + 3) 1)
    && (recordsOf b 0x0106 16).all (fun o => zeros b (o + 5) 3 && zeros b (o + 12) 4)
    && (recordsOf b 0x0107 16).all (fun o => decide (byteAt b (o + 4) < 4) && zeros b (o + 5) 11)

/-- A recipe bundle parsed (R421, R422). -/
def parseRecipe (b : List Byte) : Recipe :=
  { profileId := leAt b 12 4, version := leAt b 16 4, minVersion := leAt b 20 4,
    regions := (recordsOf b 0x0101 16).head?.map fun o => (leAt b o 4, leAt b (o + 4) 4, leAt b (o + 8) 4, leAt b (o + 12) 4),
    quotas := (recordsOf b 0x0102 8).map fun o => (byteAt b o, leAt b (o + 2) 2, leAt b (o + 4) 4),
    pgout := (recordsOf b 0x0103 8).head?.map fun o => (List.range 8).map fun i => byteAt b (o + i),
    windows := (recordsOf b 0x0104 16).map (parseWm b),
    settings := (recordsOf b 0x0105 8).map fun o => (byteAt b (o + 2), leAt b o 2, w32 (leAt b (o + 4) 4)),
    rules := (recordsOf b 0x0106 16).map fun o =>
      { code := leAt b o 2, source := byteAt b (o + 2), action := byteAt b (o + 3), unit := byteAt b (o + 4), delay := leAt b (o + 8) 4 },
    repeatWin := (recordsOf b 0x0107 16).head?.map fun o => leAt b o 4,
    refRelease := ((recordsOf b 0x0107 16).head?.map fun o => byteAt b (o + 4)).getD 0,
    digest := bundleDigest b }

/-! ## The checks (R423) -/

/-- Step 1, Rind's: the status with which it fails (R413, R421, R423). -/
def recipeStep1 (n : Nvm) (b : List Byte) (limit : Nat) : Option Nat :=
  let r := parseRecipe b
  if !bundleShape b 0x52435A41 65536 limit 8 recipeShape || !recipeReserved b then some stRange
  else if !signed02 n.makerKey false none b then some stAuth
  else if r.version < n.recipeFloor ∨ r.version < r.minVersion then some stAuth
  else none

/-- The region sizes of a recipe: Paste, history, one capture slot (R292, R421). -/
def recipeRegions (r : Recipe) : Nat × Nat × Nat := match r.regions with | some (p, h, _, k) => (p, h, k) | none => (2048, 2048, 512)

/-- The sizes are within the limits of R292: the capture region is its four slots. -/
def regionsOk (r : Recipe) : Bool :=
  match r.regions with
  | none => true
  | some (p, h, c, k) =>
    p % 64 == 0 && h % 64 == 0 && c % 64 == 0 && within p 1024 4096 && (h == 0 || within h 64 4096) && (k == 0 || within k 32 1024) && c == 4 * k
      && decide (512 + p + h + c + 512 ≤ 8192)

/-- Tiles an image needs at its start (R415). -/
def needTiles (i : ImageInfo) : Nat := i.loadTiles + i.workTiles

/-- A Paste image slot. -/
def pasteSlotOf (n : Nvm) (k : Nat) : ImageSlot := if k = 0 then n.paste0 else n.paste1

/-- The Paste region holds the running image and the verified one beside it (R417). -/
def regionHolds (s : State) (r : Recipe) : Bool :=
  [0, 1].all fun k => match (pasteSlotOf s.nvm k).verified with | some i => decide (needTiles i ≤ (recipeRegions r).1) | none => true

/-- Pool tiles under a recipe's regions (R292). -/
def recipePool (r : Recipe) : Nat := let z := recipeRegions r; 8192 - 512 - z.1 - z.2.1 - 4 * z.2.2

/-- The reserves and quotas a recipe sets, by holder (R293). -/
def recipeQuotas (r : Recipe) : Tbl (Nat × Nat) := r.quotas.foldl (fun t q => Tbl.put t q.1 q.2) []

/-- Its quota records name pool holders, and the reserves fit the pool (R293). -/
def quotasOk (s : State) (r : Recipe) : Bool :=
  let s := s.onVat fun v => { v with quotas := recipeQuotas r }
  r.quotas.all (fun q => poolHolders.contains q.1) && decide ((poolHolders.map fun h => (poolLimits s h).1).sum ≤ recipePool r)

/-- A unit number is not reserved (R25). -/
def unitNumber (u : Nat) : Bool := decide (u < 71) || decide (128 ≤ u ∧ u < 256)

/-- The settings of one unit, as pairs (R421). -/
def settingsOf (r : Recipe) (u : Nat) : List (Nat × Word32) := (r.settings.filter fun p => p.1 == u).map (·.2)

/-- The units a recipe has settings for. -/
def settingUnits (r : Recipe) : List Nat := (r.settings.map (·.1)).eraseDups

/-- What a write to a unit reaches (R60, R355). -/
def writeTargets (s : State) (u : Nat) : List Nat := if isGroup s u then liveTargets s u else targets s u

/-- The settings of a unit are as UNIT_CONFIG_WRITE accepts them; those of a hoop that is not formed wait for none (R47, R352, R355). -/
def settingsOk (s : State) (r : Recipe) (u : Nat) : Bool :=
  unitNumber u && (parallelOf s u).isNone && (firstFault s u (writeTargets s u) (settingsOf r u)).isNone

/-- A rule names an action and a unit (R422). -/
def ruleOk (r : Rule) : Bool := decide (r.action < 4) && unitNumber r.unit

/-- Step 2, Paste's: every record under the rules it names, the profile, and R417 (R423). -/
def recipeStep2 (s : State) (r : Recipe) : Bool :=
  regionsOk r && regionHolds s r && quotasOk s r
    && (match r.pgout with | some us => us.all unitNumber | none => true)
    && r.windows.all (fun w => wmOk w.1 w.2.1) && (settingUnits r).all (settingsOk s r) && r.rules.all ruleOk
    && (match r.repeatWin with | some w => within w 10 60000 | none => true)
    && (match s.fw.profile with | some p => p.profileId == r.profileId | none => false)

/-! ## The measurement references in DOZE (R241) -/

/-- The units whose current node a bank owns. -/
def bankUnits (b : Nat) : List Nat := leafNums.filter fun u => nodeBank (iNode u) == b

/-- A bank's buffer disabled in DOZE on a recipe's request, or the request refused (R241). -/
def releaseRef (s : State) (b : Nat) : State :=
  if (mbank s b).released then s
  else if (bankUnits b).all fun u => match (leafOf s u).st with | .off | .cool | .lock | .retired => true | _ => false then
    onBank (endDual s) b fun k => { k with released := true, rewake := false, refOn := false, refReady := false }
  else raise s (119 + b) evMeasRefRefused (w32 b) 0 0

/-- The requests of the recipe in force, in DOZE (R241). -/
def releaseRefs (s : State) : State :=
  match s.fw.recipe with
  | some r => if s.power.mode = .doze then (([0, 1].filter fun b => r.refRelease.testBit b).foldl releaseRef s) else s
  | none => s

/-! ## Applying a recipe (R423) -/

/-- The settings of one unit applied, where it still takes them. -/
def applySettings (r : Recipe) (s : State) (u : Nat) : State :=
  let ps := settingsOf r u
  let ts := writeTargets s u
  if settingsOk s r u then ts.foldl applyValues (writePairs s u ts ps) else s

/-- A recipe in force: what takes effect at one tick boundary, its quotas, and the regions of the next Paste start (R292 to R295, R402, R421, R423). -/
def applyRecipe (r : Recipe) (slot : Nat) (s : State) : State :=
  let z := recipeRegions r
  let s := s.onVat fun v => { v with quotas := recipeQuotas r, nextPaste := z.1, nextHist := z.2.1, nextCap := z.2.2 }
  let s := s.onCave fun c => { c with repeatWin := r.repeatWin.getD 1000 }
  let s := s.onFw fun f => { f with recipe := some r, recipeSlot := slot }
  let s := r.windows.foldl (fun s w => applyWm s w.1 w.2.1 w.2.2) s
  releaseRefs ((settingUnits r).foldl (applySettings r) s)

/-- A recipe slot's bundle. -/
def recipeBytes (n : Nvm) (k : Nat) : List Byte := if k = 0 then n.recipe0 else n.recipe1

/-- A recipe slot passes steps 1 and 2 (R423). -/
def recipePasses (s : State) (k : Nat) : Bool :=
  let b := recipeBytes s.nvm k
  !b.isEmpty && (recipeStep1 s.nvm b b.length).isNone && recipeStep2 s (parseRecipe b)

/-- The selected recipe's region sizes are those that the first start of Paste after a device reset takes (R295). -/
def selectRegions (s : State) : State :=
  match [s.nvm.recipeSel, 1 - s.nvm.recipeSel].find? (recipePasses s) with
  | some k =>
    let z := recipeRegions (parseRecipe (recipeBytes s.nvm k))
    s.onVat fun v => { v with nextPaste := z.1, nextHist := z.2.1, nextCap := z.2.2 }
  | none => s

/-- The selected recipe applied at a start of Paste; the other slot where it fails, no recipe where both do (R418, R423, R425). -/
def applySelectedRecipe (s : State) : State :=
  let k := s.nvm.recipeSel
  match [k, 1 - k].find? (recipePasses s) with
  | some k => applyRecipe (parseRecipe (recipeBytes s.nvm k)) k s
  | none => clearRecipe s

/-- A checked recipe stored and selected, with its floor (R414, R423). -/
def storeRecipe (b : List Byte) (s : State) : State :=
  let b := b.take (totalLen b)
  s.onNvm fun n =>
    let n := if n.recipeSel = 0 then { n with recipe1 := b, recipeSel := 1 } else { n with recipe0 := b, recipeSel := 0 }
    { n with recipeFloor := Nat.max n.recipeFloor (parseRecipe b).minVersion }

/-- RECIPE_LOAD (R366, R423); that the write of step 3 fails is a free choice (log entry 84). -/
def runRecipeLoad (f : Flight) (s : State) : State :=
  let b := f.sub.data
  if loadRunning s f.id then done s f stBusy
  else match recipeStep1 s.nvm b f.sub.bufLen with
    | some st => doneWith s f st 1
    | none =>
      let r := parseRecipe b
      if !recipeStep2 s r then doneWith s f stRange 2
      else
        let d := draw s
        let s := d.2
        if Config.slotWriteFails d.1 then doneWith s f stRange 3
        else
          let s := storeRecipe b s
          doneWith (applyRecipe r s.nvm.recipeSel s) f stOk (w32 r.version)

/-! ## PGOUT (R126) -/

/-- The unit each PGOUT pin follows; 255 for a pin held low. -/
def pgoutUnits (s : State) : List Nat :=
  match s.fw.recipe with
  | some { pgout := some us, .. } => us
  | _ => [68, 69, 255, 255, 255, 255, 255, 255]

/-- The pins follow their units' PG: released while it is asserted (R126). -/
def pgoutStep (s : State) : State := s.onPress fun p => { p with pgout := (pgoutUnits s).map fun u => u != 255 && unitPg s u }

end Sys2Proof.Machine
end

