-- ==== Sys2Proof/Machine/Firmware.lean ====
section
/-!
DEFINITION. Machine/Firmware.lean: firmware images, Paste's start, restart, handover and fall, the fallback, Rind's domain reset and return, the debug port
(R17, R220, R295, R333, R339, R367, R368, R411 to R416, R420, R424 to R434).
-/

namespace Sys2Proof.Machine

/-! ## Images (R412, R415, R416) -/

/-- Bytes of an image slot; one that has not been written reads as erased. -/
def slotBytes (sl : ImageSlot) (i n : Nat) : List Byte := (List.range n).map fun k => Tbl.get 0xFF sl.bytes (i + k)

/-- An image's header (R415). -/
def parseImage (h : List Byte) : ImageInfo :=
  { keySlot := byteAt h 5, revokeBelow := bit (byteAt h 6) 0, totalLen := leAt h 8 4, version := leAt h 12 4, minVersion := leAt h 16 4,
    loadTiles := leAt h 20 2, workTiles := leAt h 22 2, handoverVersion := leAt h 24 2, handoverMin := leAt h 26 2 }

/-- An image slot: target 0 Paste, 1 Rind. -/
def imageSlot (n : Nvm) (target k : Nat) : ImageSlot := if target = 0 then pasteSlotOf n k else if k = 0 then n.rind0 else n.rind1

/-- An image slot written. -/
def setImageSlot (s : State) (target k : Nat) (sl : ImageSlot) : State :=
  s.onNvm fun n =>
    if target = 0 then (if k = 0 then { n with paste0 := sl } else { n with paste1 := sl })
    else if k = 0 then { n with rind0 := sl } else { n with rind1 := sl }

/-- Size of an image slot (R416). -/
def slotSize (target : Nat) : Nat := if target = 0 then 2097152 else 262144

/-- The rollback floor of a target (R414). -/
def imageFloor (n : Nvm) (target : Nat) : Nat := if target = 0 then n.pasteFloor else n.rindFloor

/-- Check 0x21 (R415, R416). -/
def image21 (target : Nat) (h : List Byte) : Bool :=
  let i := parseImage h
  leAt h 0 4 == 0x4D495A41 && byteAt h 4 == target && decide (192 ≤ i.totalLen ∧ i.totalLen ≤ slotSize target)
    && decide (byteAt h 6 < (if target = 0 then 1 else 2)) && zeros h 7 1 && zeros h 28 36 && (target == 0 || zeros h 20 4)
    && decide (i.minVersion ≤ i.version)

/-- The image checks in their order: the code of the first that fails (R412, R416). -/
def imageCheck (s : State) (target : Nat) (sl : ImageSlot) : Option Nat :=
  let h := slotBytes sl 0 64
  let i := parseImage h
  if !image21 target h then some 0x21
  else
    let b := slotBytes sl 0 i.totalLen
    if 4 ≤ i.keySlot ∨ i.keySlot < s.nvm.revokedBelow ∨ sha256 (bundleKey' b i.totalLen) ≠ Config.azwardKeyHash i.keySlot then some 0x22
    else if !ecdsaVerifies (bundleKey' b i.totalLen) (sha256 (b.take (i.totalLen - 64))) (slice b (i.totalLen - 64) 64) then some 0x23
    else if i.version < imageFloor s.nvm target then some 0x24
    else if target = 0 ∧ s.vat.pasteTiles < needTiles i then some 0x25
    else none
where
  bundleKey' (b : List Byte) (n : Nat) : List Byte := slice b (n - 128) 64

/-- The image in a slot as FINAL verifies it, with the digest Rind records (R416). -/
def verifiedImage (sl : ImageSlot) : ImageInfo :=
  let i := parseImage (slotBytes sl 0 64)
  { i with digest := sha256 (slotBytes sl 0 i.totalLen) }

/-- The slot that is running: of Paste or of Rind. -/
def runningSlot (s : State) (target : Nat) : Nat := if target = 0 then s.fw.pasteSlot else s.fw.rindSlot

/-- The selected slot. -/
def selectedSlot (n : Nvm) (target : Nat) : Nat := if target = 0 then n.pasteSel else n.rindSel

/-- The inactive slot of a target: the one that does not run. -/
def inactiveSlot (s : State) (target : Nat) : Nat := 1 - runningSlot s target

/-- A chunk written to a slot. One at OFFSET 0, and one that changes the contents, leaves it without its verified mark (R367, R416). -/
def writeChunk (sl : ImageSlot) (off : Nat) (bs : List Byte) : ImageSlot :=
  let same := (List.range bs.length).all fun i => Tbl.find sl.bytes (off + i) == some (bs.getD i 0)
  { bytes := Mem.store 0xFF sl.bytes off bs, verified := if off = 0 ∨ !same then none else sl.verified, staged := Nat.max sl.staged (off + bs.length),
    fresh := sl.fresh || !same }

/-- The part of a chunk that could be read written to the slot (R289, R367). -/
def stagePart (f : Flight) (bs : List Byte) (s : State) : State :=
  let target := arg f.sub 28 1
  let k := inactiveSlot s target
  setImageSlot s target k (writeChunk (imageSlot s.nvm target k) (arg f.sub 32 4) bs)

/-- FW_STAGE once its chunk has been read: it is written, and with FINAL the image is verified (R367, R416). -/
def stageChunk (f : Flight) (bs : List Byte) (s : State) : State :=
  let target := arg f.sub 28 1
  let k := inactiveSlot s target
  let s := stagePart f bs s
  if flag f.sub 2 then
    let sl := imageSlot s.nvm target k
    match imageCheck s target sl with
    | some c => doneWith (setImageSlot s target k { sl with verified := none }) f stAuth (w32 c)
    | none => let i := verifiedImage sl; doneWith (setImageSlot s target k { sl with verified := some i }) f stOk (w32 i.version)
  else doneWith s f stOk (w32 bs.length)

/-- What FW_STAGE refuses before it reads its chunk (R346, R367). -/
def stageRefusal (s : State) (f : Flight) : Option Nat :=
  let target := arg f.sub 28 1
  let off := arg f.sub 32 4
  if 1 < target ∨ off % 4096 ≠ 0 ∨ 262144 < f.sub.bufLen ∨ slotSize target < off + f.sub.bufLen then some stRange
  else if s.link.flights.any fun g => g.id != f.id && g.op == .fwStage && g.phase != .waiting && arg g.sub 28 1 == target then some stBusy
  else none

/-! ## Paste's tiles and regions (R285, R292, R295, R418) -/

/-- The cores stopped: their windows are revoked (R425), and Paste's code, data, handover and scratch tiles released. -/
def unloadPaste (s : State) : State := [3, 4, 5, 6].foldl releaseAll (s.onVat fun v => { v with windows := [] })

/-- A window as Rind grants it (R296). -/
def windowOf (w : Nat) : Option Window :=
  if w % 2 = 0 then none
  else some { first := w / 2 % 8192, count := 1 + w / 16384 % 4096, holder := w / 67108864 % 128, write := w / 8589934592 % 2 == 1 }

/-- The windows of the four cores granted (R296, R418, R425, R428); which they are is a free value (log entry 95). -/
def grantWindows (s : State) : State :=
  let n := s.draws
  (draw s).2.onVat fun v =>
    { v with windows := (List.range 4).map fun c => (c, (List.range 32).filterMap fun i => windowOf (Config.pasteWindow n c i)) }

/-- LOAD_TILES loaded and the working tiles taken (R418, R425); how many of those are scratch is a free choice. -/
def loadPaste (k : Nat) (s : State) : State :=
  match (pasteSlotOf s.nvm k).verified with
  | none => s
  | some i =>
    let s := (List.range i.loadTiles).foldl (fun s _ => closeTile (allocTile s 3) 3 none) s
    let d := draw s
    let w := d.1 % (i.workTiles + 1)
    (List.range i.workTiles).foldl (fun s j => allocTile s (if j < w then 4 else 6)) d.2

/-- New region sizes taken at a start of Paste: the history restarts empty, the capture slots become EMPTY, but for tiles that a read
still holds, and the streams stop (R287, R295). -/
def takeRegions (s : State) : State :=
  let v := s.vat
  if v.pasteTiles = v.nextPaste ∧ v.histTiles = v.nextHist ∧ v.capTiles = v.nextCap then s
  else
    let s := (List.range 8).foldl (fun s r => stopStream s r 2) s
    let s := settleCaptures (releaseAll (s.onMeas fun m => { m with history := [], histAt := none, captures := [] }) 68)
    s.onVat fun v => { v with pasteTiles := v.nextPaste, histTiles := v.nextHist, capTiles := v.nextCap }

/-- A Paste image started from a slot; its self-check is awaited after a boot start or a handover (R418, R425, R428). -/
def startPaste (k : Nat) (check : Bool) (s : State) : State :=
  let s := grantWindows (loadPaste k (takeRegions (unloadPaste s)))
  let s := s.onLink fun l => if l.allowDue then { l with allowAt := some s.time.gtc, allowDue := false } else l
  s.onFw fun f => { f with paste := .serving, pasteSlot := k, selfCheckDue := check, pasteAt := s.time.gtc, stalled := [] }

/-- A Paste slot can be started: verified, not below the floor, and its code and working tiles fit the region that a start takes (R292, R418, R426). -/
def pasteUsable (s : State) (k : Nat) : Bool :=
  match (pasteSlotOf s.nvm k).verified with
  | some i => decide (s.nvm.pasteFloor ≤ i.version ∧ needTiles i ≤ s.vat.nextPaste)
  | none => false

/-- VERSION of the image in a Paste slot. -/
def pasteVersion (s : State) (k : Nat) : Nat := (pasteSlotOf s.nvm k).verified.elim 0 (·.version)

/-! ## The fallback (R220, R333) -/

/-- The limp-home set: its units switched on as by UNIT_ON (R161, R333). -/
def limpHome (s : State) : State :=
  (slotsOf s (leafNums.filter fun u => (leafOf s u).env.limpOn)).foldl (fun s e => (startUnit e s).1) s

/-- The regulators power-cycled: off at once in one tick, unless in COOL or LOCK, and held off for the longer REG_T_CYCLE (R220). -/
def cycleRegs (s : State) : State :=
  let rs := [68, 69].filter fun u => match (leafOf s u).st with | .cool | .lock => false | _ => true
  let t := Nat.max (soft s 68 fTCycle) (soft s 69 fTCycle) * 1000
  let s := rs.foldl (fun s u => toOff s u false true stState) s
  let s := s.onLink fun l => { l with regCycles := l.regCycles + 1, regRestartAt := none }
  s.onPress fun p => { p with regCycle := some (wholeTicks s t, rs) }

/-- The FALLBACK of the profile in force (R161). -/
def fallbackOf (s : State) : Nat := s.fw.profile.elim 0 (·.fallback)

/-- The fallback applied (R220, R333, R420). -/
def applyFallback (s : State) : State :=
  match fallbackOf s with
  | 1 => limpHome s
  | 2 => cycleRegs s
  | _ => s

/-- REGULATOR_POWER_CYCLE: the off time has passed, and the regulators start in one tick (R220). -/
def regulatorCycleOp (s : State) : State :=
  match s.press.regCycle with
  | some (0, rs) =>
    let s := s.onPress fun p => { p with regCycle := none }
    let s := rs.foldl (fun s u => (startUnit u s).1) s
    s.onLink fun l => { l with regRestartAt := some s.time.gtc }
  | _ => s

/-- FALLBACK_RECYCLE: HOST_LOST still holds 30 s after the regulators restarted; at most three cycles in an episode (R333). -/
def fallbackRecycleOp (s : State) : State :=
  match s.link.regRestartAt with
  | some t => if s.link.hostLost ∧ s.link.regCycles < 3 ∧ t + 12000000000 ≤ s.time.gtc then cycleRegs s else s
  | none => s

/-! ## Restarts (R339, R424 to R426) -/

/-- The Press had taken in the command's action (R339). -/
def takenIn (f : Flight) : Bool := match f.phase with | .attempt _ | .sequence _ | .swap | .applied _ => true | _ => false

/-- The command waits in the Press for its TIME, or for a free leaf in or after it, which no restart of Paste touches (R339, R341). -/
def heldByPress (f : Flight) : Bool := f.phase == .scheduled || (f.phase == .deferred && f.sub.time != 0)

/-- The commands a restart ends (R339, R411). -/
def restartEnds (s : State) : List Flight := s.link.flights.filter fun f => f.origin != .firmware && f.origin != .orphan && !heldByPress f

/-- Edits that wait for their swap are the Press's and are made, each in a tick of its own (R341, R411); their commands end with the restart. -/
def commitEdits (s : State) : State :=
  let s := s.onLink fun l => { l with flights := l.flights.map fun f => if f.phase = .swap then { f with origin := .orphan } else f }
  s.press.edits.foldl (fun s _ => swapOp (s.onPress fun p => { p with served := [] })) s

/-- The commands in flight that only wait have no effect any more (R339): a change of power state, a calibration, a clear of the Cave, a PTM dialogue. -/
def dropWaits (fs : List Flight) (s : State) : State :=
  let some_ (p : Phase) : Bool := fs.any fun f => f.phase == p
  let s := s.onPower fun p => { p with next := if some_ .power then none else p.next }
  let s := s.onMeas fun m => { m with calRun := if some_ .calibration then [] else m.calRun }
  let s := s.onTime fun t => { t with dialogue := if some_ .dialogue then none else t.dialogue }
  s.onCave fun c => { c with clearing := false }

/-- FW_RESTART completions for the commands in flight, in fetch order (R339, R425); that of a rolled-back activation carries `act` (R430). -/
def endInFlight (act : Nat) (s : State) : State :=
  let fs := restartEnds s
  let s := commitEdits (dropWaits fs s)
  fs.foldl (fun s f =>
    finish s f stFwRestart f.sub.handle (if f.phase = .handover then w32 act else if takenIn f then defaultResult s f else 0)) s

/-- A Paste restart on a slot (R425): PASTE_RESTART, the reload, the selected recipe, the FW_RESTART completions. -/
def restartOn (k cause act : Nat) (s : State) : State :=
  let s := raise s 118 evPasteRestart (w32 cause) (w32 (restartEnds s).length) 0
  let s := applySelectedRecipe (startPaste k false s)
  endInFlight act (s.onFw fun f => { f with handover := none, commitDue := false })

/-- Paste is down: Rind applies the fallback at once (R420). -/
def pasteDown (s : State) : State :=
  let s := unloadPaste s
  applyFallback (s.onFw fun f => { f with paste := .down, selfCheckDue := false, handover := none, commitDue := false })

/-- FW_ROLLED_BACK (R410, R426, R430). -/
def rolledBack (s : State) (k cause : Nat) : State := raise s 117 evFwRolledBack 0 (w32 (pasteVersion s k)) (w32 cause)

/-- Why Paste failed: a trap or PASTE_FAULT, its self-check, the watchdog, a failed tile. -/
inductive PasteFailure where
  | crash | selfCheck | watchdog | tile
deriving DecidableEq, Repr

/-- P0 of PASTE_RESTART (R410). -/
def PasteFailure.cause : PasteFailure → Nat
  | .watchdog => 1
  | .tile => 2
  | _ => 0

/-- The cause of FW_ROLLED_BACK: the self-check, or the watchdog (R410, R426, R430); a trap counts as the self-check. -/
def PasteFailure.rollback : PasteFailure → Nat
  | .watchdog => 2
  | _ => 1

/-- The code in which a failure waits for Rind. -/
def PasteFailure.code : PasteFailure → Nat
  | .crash => 0 | .watchdog => 1 | .tile => 2 | .selfCheck => 3

/-- The failure of a code. -/
def pasteFailureOf (c : Nat) : PasteFailure := if c = 1 then .watchdog else if c = 2 then .tile else if c = 3 then .selfCheck else .crash

/-- A restart counted in the last 600 s of operating time (R426). The span in which the other slot counts as tried ends when 600 s have passed without a switch
and without a restart (log entry 123). -/
def countRestart (s : State) : State :=
  let recent := s.fw.pasteRestarts.filter fun t => decide (s.power.opsec < t + 600)
  s.onFw fun f =>
    { f with pasteRestarts := recent ++ [s.power.opsec],
             otherTried := f.otherTried && (decide (s.power.opsec < f.switchedAt + 600) || !recent.isEmpty) }

/-- Paste restarts on its other slot, or is down where that cannot be started (R426). -/
def switchPaste (w : PasteFailure) (rb : Nat) (s : State) : State :=
  let k := 1 - s.fw.pasteSlot
  if pasteUsable s k then
    let s := s.onFw fun f => { f with pasteRestarts := [], otherTried := true, switchedAt := s.power.opsec }
    rolledBack (restartOn k w.cause 0 s) k rb
  else pasteDown s

/-- A failed new image of a handover: Paste restarts on the old slot, and the failed slot loses its verified mark (R430). -/
def rollBack (w : PasteFailure) (k : Nat) (s : State) : State :=
  let s := setImageSlot s 0 k { pasteSlotOf s.nvm k with verified := none }
  rolledBack (restartOn (1 - k) w.cause 1 s) (1 - k) w.rollback

/-- The running Paste is within 2 s of a boot start or a handover (R426, R430). -/
def newPaste (s : State) : Bool := s.fw.selfCheckDue && decide (s.time.gtc ≤ s.fw.pasteAt + 800000000)

/-- Paste fails (R424 to R426, R430): a restart, a rollback, a switch of slots, or Paste down; Rind's part waits for its return (R430, R431). -/
def pasteFails (w : PasteFailure) (s : State) : State :=
  if s.fw.paste = .down ∨ (s.fw.paste = .stopped ∧ ¬ s.fw.selfCheckDue) then s
  else if s.fw.rind ≠ .running then s.onFw fun f => { f with paste := .stopped, restartDue := some w.code }
  else
    let s := countRestart s
    if s.fw.paste = .handover then restartOn s.fw.pasteSlot w.cause 0 s
    else match s.fw.handover with
      | some (_, k) => rollBack w k s
      | none =>
        if newPaste s then switchPaste w w.rollback s
        else if s.fw.pasteRestarts.length < 5 then restartOn s.fw.pasteSlot w.cause 0 s
        else if s.fw.otherTried then pasteDown s
        else switchPaste w 2 s

/-- The heartbeats Rind checks (R424, R439, R441): those of the cores that run, in DOZE the one that Paste keeps, which is core 0 (log entry 124). -/
def watchedCores (s : State) (stalled : List Nat) : List Nat := if s.power.mode = .doze then stalled.filter (· == 0) else stalled

/-- PASTE_WATCHDOG: a running core whose heartbeat stood still at two checks (R424). -/
def pasteWatchdogOp (stalled : List Nat) (s : State) : State :=
  if s.fw.rind ≠ .running ∨ s.fw.paste = .down ∨ (s.fw.paste = .stopped ∧ ¬ s.fw.selfCheckDue) then s
  else
    let w := watchedCores s stalled
    let trip := w.any s.fw.stalled.contains
    let s := s.onFw fun f => { f with stalled := w }
    if trip then pasteFails .watchdog s else s

/-- A window of a core that reaches a tile of its holder with the right it takes (R296). -/
def windowAdmits (s : State) (tile : Nat) (write : Bool) (w : Window) : Bool :=
  decide (w.first ≤ tile ∧ tile < w.first + w.count) && w.holder == (tagOf s tile).holder && (!write || w.write)

/-- An access of a Paste core is forbidden (R296): no window admits it, or it reads a CLOSED tile other than through the checker. -/
def accessForbidden (s : State) (core : Nat) (a : TileAccess) : Bool :=
  !((Tbl.get [] s.vat.windows core).any (windowAdmits s a.tile a.write)) || (!a.write && !a.checked && (tagOf s a.tile).state == .closed)

/-- PASTE_FAULT (R14, R296): the access is held against the tile permission map. -/
def pasteFaultOp (core : Nat) (a : TileAccess) (s : State) : State :=
  if s.fw.paste = .down ∨ s.fw.paste = .stopped ∨ !accessForbidden s core a then s
  else pasteFails .crash (raise s 118 evPasteFault (w32 core) (w32 a.tile) 0)

/-! ## Handover (R366 to R368, R427, R428, R430) -/

/-- The image a Paste handover would start meets R427: the status with which it is refused. -/
def handoverRefusal (s : State) (f : Flight) (k : Nat) : Option Nat :=
  match (pasteSlotOf s.nvm k).verified with
  | none => some stState
  | some i =>
    let run := (pasteSlotOf s.nvm s.fw.pasteSlot).verified.elim 0 (·.handoverVersion)
    if run < i.handoverMin ∨ s.vat.pasteTiles < needTiles i then some stState
    else if i.version < s.nvm.pasteFloor then some stAuth
    else if loadRunning s f.id then some stBusy
    else none

/-- A handover to a slot begins: the old Paste stops fetching, its export is written to handover tiles, whose number is a free choice and for which it waits
(R294), and the gap ends within 20 ms, at a moment that is a free choice (R428). -/
def beginHandover (f : Flight) (k : Nat) (s : State) : State :=
  let e := draw s
  let n := 1 + e.1 % 512
  if !tilesAvailable s 5 n then noteWait f e.2
  else
  let d := draw e.2
  let s := setPhase ((List.range n).foldl (fun s _ => closeTile (allocTile s 5) 5 none) d.2) f.id .handover
  s.onFw fun w => { w with paste := .handover, handover := some (f.id, k), gapEnd := s.time.gtc + d.1 % 8000000 }

/-- The gap of a handover ends: the new image has been loaded and serves once it has imported the export through the checker (R428); a handover tile that fails
its check is a failure of the new image (R289, R430). -/
def endGap (s : State) : State :=
  match s.fw.paste, s.fw.handover with
  | .handover, some (_, k) =>
    let lost := (refsOf s 5).filter (unreadable s)
    let s := startPaste k true (releaseAll (lost.foldl (fun s r => failRead s 5 r) s) 5)
    if lost.isEmpty then s else rollBack .tile k (countRestart s)
  | _, _ => s

/-- The end of a gap whose time has come. -/
def gapStep (s : State) : State := if s.fw.paste = .handover ∧ s.fw.gapEnd ≤ s.time.gtc then endGap s else s

/-- Another Rind slot selected for the next device reset (R368). -/
def selectRind (f : Flight) (k : Nat) (rollback : Bool) (s : State) : State :=
  match (imageSlot s.nvm 1 k).verified with
  | none => done s f stState
  | some i =>
    if i.version < s.nvm.rindFloor then done s f stAuth
    else if loadRunning s f.id then done s f stBusy
    else
      let s := s.onNvm fun n => { n with rindSel := k }
      let s := if rollback then raise s 117 evFwRolledBack 1 (w32 i.version) 0 else s
      doneWith s f stOk (w32 i.version)

/-- FW_ACTIVATE (R368, R427, R428). -/
def runFwActivate (f : Flight) (s : State) : State :=
  match arg f.sub 28 1 with
  | 0 => match handoverRefusal s f (inactiveSlot s 0) with
    | some st => done s f st
    | none => beginHandover f (inactiveSlot s 0) s
  | 1 => selectRind f (inactiveSlot s 1) false s
  | _ => done s f stRange

/-- FW_ROLLBACK: the image in the other slot (R368). -/
def runFwRollback (f : Flight) (s : State) : State :=
  match arg f.sub 28 1 with
  | 0 => match handoverRefusal s f (inactiveSlot s 0) with
    | some st => done s f st
    | none => beginHandover f (inactiveSlot s 0) s
  | 1 => selectRind f (1 - selectedSlot s.nvm 1) true s
  | _ => done s f stRange

/-- The selector and PASTE_FLOOR in one NVM-B record, the floor at the end of a handover and at a start of the selected slot alone; a handover's command
completes with the version (R414, R428). -/
def commitPaste (s : State) : State :=
  let k := s.fw.pasteSlot
  let v := pasteVersion s k
  let min := (pasteSlotOf s.nvm k).verified.elim 0 (·.minVersion)
  let ho := s.fw.handover
  let s := s.onNvm fun n => { n with pasteFloor := if ho.isSome ∨ k = n.pasteSel then Nat.max n.pasteFloor min else n.pasteFloor, pasteSel := if ho.isSome then k else n.pasteSel }
  let s := s.onFw fun f => { f with handover := none, commitDue := false }
  match ho with
  | none => s
  | some (id, _) =>
    let s := raise s 117 evFwActivated 0 (w32 v) 0
    match flightOf s id with
    | some f => doneWith (if f.op = .fwRollback then rolledBack s k 0 else s) f stOk (w32 v)
    | none => s

/-- What waits for the NVM-B record of a passed self-check is done (R430, R451). -/
def commitIfDue (s : State) : State := if s.fw.commitDue ∧ rindCommits s then commitPaste s else s

/-- PASTE_SELF_CHECK (R426, R428, R430). -/
def pasteSelfCheckOp (pass : Bool) (s : State) : State :=
  if s.fw.restartDue.isSome ∨ ¬ (s.fw.paste = .handover ∨ s.fw.selfCheckDue) then s
  else
    let was := s.fw.paste = .handover
    let s := endGap s
    if was ∧ s.fw.handover.isNone then s
    else if pass then commitIfDue (s.onFw fun f => { f with paste := .serving, selfCheckDue := false, commitDue := true })
    else pasteFails .selfCheck s

/-! ## Rind (R17, R180, R431, R432) -/

/-- The command waits for something that Rind does (R345, R431). -/
def waitsForRind (f : Flight) : Bool :=
  match f.phase with
  | .nvmWait | .dialogue | .calibration => true
  | .transfer _ => f.op == .fwStage
  | _ => false

/-- An interrupted FW_STAGE leaves its slot without its verified mark (R431). -/
def spoilStage (s : State) (f : Flight) : State :=
  if f.op = .fwStage then
    let target := arg f.sub 28 1
    setImageSlot s target (inactiveSlot s target) { imageSlot s.nvm target (inactiveSlot s target) with verified := none }
  else s

/-- RIND_DOMAIN_RESET (R17, R403, R430, R431): the open record is staged, what waits for Rind completes with BUSY, a handover before its step 6 will be a
restart. -/
def rindDomainResetOp (s : State) : State :=
  if s.fw.rind ≠ .running then s
  else
    let s := stageOpen s
    let recent := s.fw.rindResets.filter fun t => decide (s.power.opsec < t + 3600)
    let gap := s.fw.paste = .handover
    let s := s.onFw fun f => { f with rind := .domainReset, rindResets := recent ++ [s.power.opsec], paste := if gap then .stopped else f.paste,
                                      restartDue := if gap then some 0 else f.restartDue }
    let fs := s.link.flights.filter waitsForRind
    let s := s.onMeas fun m => { m with calRun := [] }
    let s := (s.onCave fun c => { c with clearing := false }).onTime fun t => { t with dialogue := none }
    let s := match s.bus.held with
      | some (.settings _ _) => busDone (s.onBus fun b => { b with held := none }) .management stBusy 0
      | _ => s
    fs.foldl (fun s f => done (spoilStage s f) f stBusy) s

/-- A verdict that has no lock record yet (R180): the record Rind writes for it. -/
def unrecorded (s : State) (u : Nat) : Option LockKind :=
  let l := leafOf s u
  if l.diag.recorded then none
  else if l.st = .retired then (if l.diag.verdict = 0 then none else some .retiredDamaged)
  else if l.st = .lock ∧ l.sub = 1 then some .damageLock
  else if l.diag.damaged then some .memberDamaged
  else none

/-- Rind writes the verdicts not yet recorded (R180). -/
def recordVerdicts (s : State) : State :=
  leafNums.foldl (fun s u =>
    match unrecorded s u with
    | some k => writeLock s u k (leafOf s u).diag.verdict (leafOf s u).diag.esc
    | none => s) s

/-- The events of verdicts kept for Rind's records are delivered (R132, R180). -/
def deliverUnrecorded (s : State) : State := s.onPress fun p => { p with evq := p.evq ++ p.unrecordedEvents, unrecordedEvents := [] }

/-- A Paste restart that waited for Rind (R430). -/
def dueRestart (s : State) : State :=
  match s.fw.restartDue with
  | none => s
  | some c =>
    let s := s.onFw fun f => { f with restartDue := none }
    let w := pasteFailureOf c
    match s.fw.handover with
    | some (_, k) =>
      if s.fw.pasteSlot = k then rollBack w k (countRestart s) else restartOn s.fw.pasteSlot w.cause 0 (countRestart s)
    | none => pasteFails w (s.onFw fun f => { f with paste := .serving })

/-- RIND_RESTART (R180, R401, R403, R431, R432): what waited in staging, RIND_RESET, verdicts and then their events, SAFE_HOLD at the third reset in an hour, and
what had been interrupted. -/
def rindRestartOp (s : State) : State :=
  if s.fw.rind ≠ .domainReset then s
  else
    let s := s.onFw fun f => { f with rind := .running, rindResets := f.rindResets.filter fun t => decide (s.power.opsec < t + 3600) }
    let s := if rindCommits s then flushStaged s else s
    let n := s.fw.rindResets.length
    let s := raise s 117 evRindReset (w32 n) 0 0
    let s := deliverUnrecorded (recordVerdicts s)
    let s := if 3 ≤ n ∧ ¬ s.fw.safeHold then raise (s.onFw fun f => { f with safeHold := true }) 117 evSafeHold 0 0 0 else s
    commitIfDue (dueRestart s)

/-! ## Debug port (R433, R434) -/

/-- The digest a token signs (R433). -/
def tokenDigest (s : State) (token : List Byte) : List Byte := sha256 (toLe Config.serial.toNat 8 ++ toLe s.fw.nonce 8 ++ token.take 8)

/-- A token verifies under the key of its scope (R433). -/
def tokenVerifies (s : State) (token : List Byte) : Bool :=
  let d := tokenDigest s token
  let sig := slice token 8 64
  token.length == 72 && match byteAt token 0 with
    | 1 => (match s.nvm.makerKey with | some h => Config.tokenVerifies h d sig | none => false)
    | 2 => [0, 1, 2, 3].any fun k => decide (s.nvm.revokedBelow ≤ k) && Config.tokenVerifies (Config.azwardKeyHash k) d sig
    | _ => false

/-- Every unit but the regulators is in OFF, COOL, LOCK or RETIRED (R434). -/
def unitsQuiet (s : State) : Bool := leafNums.all fun u => leafKind u == .regulator || !(leafOf s u).st.active

/-- DEBUG_TOKEN (R433, R434): CHALLENGE is renewed after every token. -/
def debugTokenOp (token : List Byte) (s : State) : State :=
  if s.fw.rind ≠ .running ∨ 3 ≤ s.fw.debugRefusals then s
  else
    let scope := byteAt token 0
    let expiry := leAt token 4 4
    let ok := tokenVerifies s token && decide (s.power.opsec ≤ expiry) && (scope == 1 || unitsQuiet s)
    let d := draw s
    let m := draw d.2
    let s := m.2.onFw fun f => { f with nonce := d.1 % 18446744073709551616, debug := if ok then some (scope, expiry) else f.debug,
                                        debugRefusals := if ok then f.debugRefusals else f.debugRefusals + 1 }
    security s (if ok then 4 else 3) m.1 0

/-- DEBUG_UNLOCK_EXPIRY (R434). -/
def debugUnlockExpiryOp (s : State) : State :=
  match s.fw.debug with
  | some (_, e) => if e < s.power.opsec then s.onFw fun f => { f with debug := none } else s
  | none => s

/-! ## Damaged tiles of Paste's code (R289, R291) -/

/-- A tile taken from its holder and tested by Rind (R289). -/
def claimTile (s : State) (t : Nat) (pass : Bool) : State :=
  testTile (s.onVat fun v => { v with held := v.held.map fun p => (p.1, p.2.filter (·.1 != t)) }) t pass

/-- A tile of Paste's code fails its check as a core loads from it (R289). -/
def codeTileFails (t : Nat) (pass : Bool) (s : State) : State :=
  pasteFails .tile (claimTile (raise (countFail s t) 115 evVatCrcFail (w32 t) (w32 (tagOf s t).holder) 0) t pass)

/-- A core loads from a damaged tile of its code, which then fails its check (R289, R291); in which tick it does so, and the result of the tile's test, are free
choices (log entry 5). -/
def codeReads (s : State) : State :=
  match (refsOf s 3).find? (unreadable s) with
  | some r =>
    let d := draw s
    if d.1 % 2 = 0 then codeTileFails r.1 (d.1 / 2 % 2 == 0) d.2 else d.2
  | none => s

end Sys2Proof.Machine
end

