-- ==== Sys2Proof/Machine/Transfers.lean ====
section
/-!
DEFINITION. Machine/Transfers.lean: pageable transfers: LOG_READ, CAPTURE_READ and FW_STAGE, translations, page requests, faults, and the wait for tiles
(R264, R289, R294, R297 to R303, R362, R364, R367).
-/

namespace Sys2Proof.Machine

/-! ## A transfer's progress (R297, R298) -/

/-- The trailer of a LOG_READ as the copy ends (R364). -/
def logTrailer (c : Cave) : List Byte := toLe (oldestSeq c) 4 ++ toLe c.nextSeq 4 ++ List.replicate 8 0

/-- The bytes a transfer writes, with the trailer as it stands now. -/
def xferData (s : State) (f : Flight) (x : Xfer) : List Byte :=
  if f.op = .logRead then x.data.take (x.data.length - 16) ++ logTrailer s.cave else x.data

/-- The length of a transfer: what it writes, or the chunk it reads. -/
def xferLen (f : Flight) (x : Xfer) : Nat := if f.op = .fwStage then f.sub.bufLen else x.data.length

/-- An offset lies in a stretch that was lost. -/
def isLost (x : Xfer) (i : Nat) : Bool := x.lost.any fun p => decide (p.1 ≤ i ∧ i < p.1 + p.2)

/-- A stretch of a transfer written to host memory, but for what was lost (R264). -/
def writeStretch (s : State) (f : Flight) (x : Xfer) (n : Nat) : State :=
  if f.op = .fwStage then s
  else
    let bs := xferData s f x
    s.onLink fun l => { l with hostMem := (List.range n).foldl (fun m i =>
      if isLost x (x.done + i) then m else Tbl.put m (f.sub.bufAddr + x.done + i) (bs.getD (x.done + i) 0)) l.hostMem }

/-- The first bulk tile of a stretch of a transfer that cannot be read (R289): LOG_READ reads its tiles as it goes, FW_STAGE once its chunk is in them. -/
def lostTile (s : State) (x : Xfer) (from_ to_ : Nat) : Option Nat :=
  (List.range x.tiles.length).find? fun i => decide (512 * i < to_ ∧ from_ < 512 * (i + 1)) && unreadable s (x.tiles.getD i (8192, 0))

/-- A transfer whose bulk tile fails its check: TILE_CRC with the offset of the first byte lost; what lies before it has been transferred (R289). -/
def crcXfer (f : Flight) (x : Xfer) (i : Nat) (s : State) : State :=
  let s := failRef s 69 (x.tiles.getD i (8192, 0))
  let s := if f.op = .fwStage then spoilStage (stagePart f (slice f.sub.data 0 (512 * i)) s) f else s
  doneWith s f stTileCrc (w32 (512 * i))

/-- The bulk tiles that a stretch of a chunk fills up are closed (R285, R367). -/
def fillStretch (f : Flight) (x : Xfer) (n : Nat) (s : State) : State :=
  if f.op ≠ .fwStage then s
  else (List.range x.tiles.length).foldl (fun s i =>
    let e := Nat.min (512 * (i + 1)) f.sub.bufLen
    if x.done < e ∧ e ≤ x.done + n then closeRef s (x.tiles.getD i (8192, 0)) (some (slice f.sub.data (512 * i) 512)) else s) s

/-- A transfer past its last byte: its command completes (R264, R362, R364, R367). -/
def endXfer (f : Flight) (x : Xfer) (s : State) : State :=
  match f.op with
  | .fwStage =>
    match lostTile s x 0 f.sub.bufLen with
    | some i => crcXfer f x i s
    | none => stageChunk f (slice f.sub.data 0 f.sub.bufLen) s
  | .logRead => doneWith s f stOk (w32 ((x.data.length - 48) / 32))
  | _ =>
    match x.lost with
    | (at_, _) :: _ => doneWith s f stTileCrc (w32 ((at_ - 64) / (2 * (capOf s (arg f.sub 28 1)).nodes.length)))
    | [] =>
      let k := arg f.sub 28 1
      let s := if flag f.sub 2 then setCap s k {} else s
      doneWith s f stOk (w32 x.data.length)

/-- The tiles of a stretch of a CAPTURE_READ whose references are stale: they move no data, and what they held is lost (R286). -/
def staleTiles (s : State) (x : Xfer) (from_ to_ : Nat) : List Nat :=
  (List.range x.tiles.length).filter fun i => decide (512 * i < to_ ∧ from_ < 512 * (i + 1)) && !honoured s (x.tiles.getD i (8192, 0))

/-- A stretch without what stale references would have moved. -/
def loseStale (f : Flight) (x : Xfer) (n : Nat) (s : State) : State × Xfer :=
  if f.op ≠ .captureRead then (s, x)
  else
    let l := staleTiles s x x.done (x.done + n)
    (l.foldl (fun s _ => countStale s) s, { x with lost := x.lost ++ l.map fun i => (512 * i, 512) })

/-- A command's transfer moves on, page by page, until a page has no translation (R297, R298). -/
def moveXfer : Nat → Nat → State → State
  | 0, _, s => s
  | n + 1, k, s =>
    match Tbl.find s.link.xfers k with
    | none => s
    | some x =>
      match x.flight.bind (flightOf s) with
      | none => s
      | some f =>
        if xferLen f x ≤ x.done then endXfer f x s
        else if !s.link.up then s
        else
          let a := f.sub.bufAddr + x.done
          let m := Nat.min (4096 - a % 4096) (xferLen f x - x.done)
          if translated s a then
            match if f.op = .logRead then lostTile s x x.done (x.done + m) else none with
            | some i => crcXfer f x i (writeStretch s f x (512 * i - x.done))
            | none =>
            let c := loseStale f x m s
            let x := c.2
            let s := fillStretch f x m (writeStretch c.1 f x m)
            let s := s.onLink fun l => { l with xfers := Tbl.put l.xfers k { x with addr := a + m, done := x.done + m, prg := none, paused := false } }
            moveXfer n k (setPhase s f.id (.transfer (x.done + m)))
          else s.onLink fun l => { l with xfers := Tbl.put l.xfers k { x with addr := a } }

/-- The most pages a command buffer of 4 MiB can touch, and one step to end. -/
abbrev xferFuel : Nat := 1026

/-- A command's pageable transfer begins (R298). -/
def beginXfer (f : Flight) (data : List Byte) (lost tiles : List (Nat × Nat)) (s : State) : State :=
  let k := s.link.nextXfer
  let s := waitXfer (setPhase s f.id (.transfer 0))
    { flight := some f.id, ring := 0, addr := f.sub.bufAddr, done := 0, data := data, lost := lost, tiles := tiles }
  moveXfer xferFuel k s

/-! ## LOG_READ (R364) -/

/-- The records a LOG_READ copies, in SEQ order; the failsafe area from slot 0 on, with none of its records older than the oldest held (R364, R405, R409). -/
def logRecords (c : Cave) (start max : Nat) (cleared failsafe fromVisible : Bool) : List CaveRec :=
  let rs := if failsafe then (c.failsafe0.toList ++ c.failsafe).filter (·.valid) else heldRecs c
  let lo := Nat.max (if cleared then 0 else visibleSeq c) (if fromVisible then visibleSeq c else start)
  (rs.filter fun r => decide (lo ≤ r.seq)).take max

/-- The header of a LOG_READ (R364). -/
def logHeader (c : Cave) (count : Nat) : List Byte :=
  toLe (oldestSeq c) 4 ++ toLe (visibleSeq c) 4 ++ toLe c.nextSeq 4 ++ toLe count 4 ++ BitVec.ofNat 8 c.mode.code :: List.replicate 15 0

/-- LOG_READ (R364): what it copies is staged in bulk tiles, for which it waits (R291, R294). -/
def runLogRead (f : Flight) (s : State) : State :=
  let max := arg f.sub 32 4
  if max < 1 ∨ 8192 < max then done s f stRange
  else
    let rs := logRecords s.cave (arg f.sub 28 4) max (flag f.sub 2) (flag f.sub 3) (flag f.sub 4)
    let bytes := logHeader s.cave rs.length ++ rs.flatMap recBytes ++ logTrailer s.cave
    if f.sub.bufLen < bytes.length then doneWith s f stRange (w32 bytes.length)
    else if !tilesAvailable s 69 (tilesFor bytes.length) then noteWait f s
    else
      let t := stageBytes 69 bytes s
      beginXfer f bytes [] t.2 t.1

/-! ## CAPTURE_READ (R264, R362) -/

/-- The failed checked reads of a capture slot's tiles, which stay with the slot (R264, R289). -/
def failCaptureTiles (s : State) (k : Nat) : State :=
  ((refsOf s (64 + k)).filter (unreadable s)).foldl (fun s r => failRead s (64 + k) r) s

/-- CAPTURE_READ (R264, R362): its tiles are READING until it ends (R287). -/
def runCaptureRead (f : Flight) (s : State) : State :=
  let k := arg f.sub 28 1
  if 3 < k then done s f stRange
  else
    let c := capOf s k
    if c.state ≠ .held then done s f stState
    else
      let bytes := captureBytes k c
      let w := 2 * c.nodes.length
      if f.sub.bufLen < bytes.length then doneWith s f stRange (w32 bytes.length)
      else
        let rs := refsOf s (64 + k)
        beginXfer f bytes ((lostRowsOf s k c).map fun i => (64 + i * w, w)) rs (rs.foldl beginRead (failCaptureTiles s k))

/-! ## FW_STAGE (R367) -/

/-- FW_STAGE: its chunk is read into bulk tiles, for which it waits (R291, R294). -/
def runFwStage (f : Flight) (s : State) : State :=
  match stageRefusal s f with
  | some st => done s f st
  | none =>
    if !tilesAvailable s 69 (tilesFor f.sub.bufLen) then noteWait f s
    else
      let t := takeTiles 69 (tilesFor f.sub.bufLen) s
      beginXfer f [] [] t.2 t.1

/-! ## Translations and page requests (R297 to R300, R303) -/

/-- A command's transfer, or a stream, fails by a translation fault (R299). -/
def failXfer (s : State) (k : Nat) : State :=
  match Tbl.find s.link.xfers k with
  | none => s
  | some x =>
    match x.flight with
    | some id =>
      (match flightOf s id with
       | some f => doneWith s f stXlate (w32 x.done)
       | none => dropXfers s fun y => y.flight == some id)
    | none => faultStream s x.ring stXlate

/-- The next page request group index that is not outstanding (R303). -/
def nextPrg (used : List Nat) : Nat → Nat → Nat
  | 0, i => i
  | fuel + 1, i => if used.contains i then nextPrg used fuel ((i + 1) % 512) else i

/-- A transfer may issue page requests: PRI is enabled and not stopped, and a stream's ring is not pinned (R298, R299). -/
def mayPage (s : State) (x : Xfer) : Bool :=
  s.link.pri && !s.link.priStopped && (x.flight.isSome || !bit (ringOf s (stIndex x.ring)).cfg.flags 1)

/-- A page request issued for a transfer (R298, R303); with 32 outstanding it waits for one of them to end. -/
def requestPage (s : State) (k : Nat) (x : Xfer) : State :=
  if 32 ≤ s.link.prgs.length then s.onLink fun l => { l with xfers := Tbl.put l.xfers k { x with paused := true } }
  else
    let g := nextPrg s.link.prgs 512 s.link.nextPrg
    s.onLink fun l => { l with prgs := l.prgs ++ [g], nextPrg := (g + 1) % 512, xfers := Tbl.put l.xfers k { x with prg := some g, prgAt := s.time.gtc, paused := true } }

/-- A transfer goes on after a translation (R297, R299). -/
def resumeXfer (s : State) (k : Nat) (x : Xfer) : State :=
  match x.flight with
  | some _ => moveXfer xferFuel k s
  | none =>
    let s := s.onLink fun l => { l with xfers := Tbl.del l.xfers k }
    let due : Bool := match streamAt s x.ring with | some y => pageDue s y | none => false
    deliverStream streamFuel x.ring (if due then reportOrWait x.ring s else s)

/-- TRANSLATION_RESPONSE (R297, R298, R300): the size of the translation, none where the page is absent. -/
def translationResponseOp (k : Nat) (size : Option Nat) (s : State) : State :=
  match Tbl.find s.link.xfers k with
  | none => s
  | some x =>
    if x.prg.isSome then s
    else match size with
      | some bytes => resumeXfer (cacheTranslation s x.addr bytes) k x
      | none =>
        if mayPage s x then requestPage s k x
        else
          let s := if x.flight.isNone then raise s 114 evDmaFault (w32 x.addr) (w32 (x.addr / 4294967296)) (w32 (stIndex x.ring)) else s
          failXfer s k

/-- The transfer that a page request group belongs to. -/
def xferOfPrg (s : State) (g : Nat) : Option (Nat × Xfer) := s.link.xfers.find? fun p => p.2.prg == some g

/-- PAGE_REQUEST_RESPONSE (R299, R303): 0 Success, 1 Invalid Request, any other Response Failure. -/
def pageRequestResponseOp (g code : Nat) (s : State) : State :=
  if !s.link.prgs.contains g then s.onLink fun l => { l with prgLate := satN 4294967295 (l.prgLate + 1) }
  else
    match code with
    | 0 =>
      let s := s.onLink fun l => { l with prgs := l.prgs.filter (· != g) }
      (match xferOfPrg s g with
       | some (k, x) => s.onLink fun l => { l with xfers := Tbl.put l.xfers k { x with prg := none, paused := false } }
       | none => s)
    | 1 =>
      let s := s.onLink fun l => { l with prgs := l.prgs.filter (· != g) }
      (match xferOfPrg s g with
       | some (k, _) => failXfer s k
       | none => s)
    | _ =>
      let ks := (s.link.xfers.filter fun p => p.2.paused).map (·.1)
      ks.foldl failXfer (s.onLink fun l => { l with priStopped := true, prgs := [] })

/-- PAGE_REQUEST_TIMEOUT (R298): a command's page request has waited 1 s. -/
def pageRequestTimeoutOp (g : Nat) (s : State) : State :=
  match xferOfPrg s g with
  | some (k, x) => if x.flight.isSome ∧ x.prgAt + 400000000 ≤ s.time.gtc then failXfer s k else s
  | none => s

/-- ATS_INVALIDATE (R297): the entries that the range touches leave the cache. -/
def atsInvalidateOp (addr bytes : Nat) (s : State) : State :=
  s.onLink fun l => { l with atc := l.atc.filter fun p => !decide (p.1 < addr + bytes ∧ addr < p.1 + p.2) }

/-- PRI_ENABLE (R299): the host has reset PRI, so nothing is outstanding and the transfers that waited translate again. -/
def priEnableOp (s : State) : State :=
  s.onLink fun l => { l with pri := true, priStopped := false, prgs := [], xfers := l.xfers.map fun p => (p.1, { p.2 with prg := none, paused := false }) }

/-! ## The wait for tiles (R294) -/

/-- Commands whose data passes through bulk tiles (R291). -/
def usesBulk (op : Op) : Bool :=
  match op with
  | .logRead | .captureRead | .fwStage | .profileLoad | .recipeLoad | .unitConfigRead | .unitConfigWrite | .hoopForm | .hoopEdit | .telemSnapshot
  | .seqDefine | .timeSync | .diagRun => true
  | _ => false

/-- Commands that may wait for handover tiles (R291, R294). -/
def usesHandover (op : Op) : Bool := op == .fwActivate || op == .fwRollback

/-- ALLOCATION_TIMEOUT (R294): the bulk or handover command named has waited 100 ms for a tile, and completes with BUSY. -/
def allocationTimeoutOp (c : CommandRef) (s : State) : State :=
  match flightByRef s c with
  | none => s
  | some f =>
    let due : Bool := match f.waitAt with | some t => decide (t + 40000000 ≤ s.time.gtc) | none => false
    if f.phase = .waiting ∧ (usesBulk f.op ∨ usesHandover f.op) ∧ due then done s f stBusy else s

end Sys2Proof.Machine
end

