-- ==== Sys2Proof/Machine/Device.lean ====
section
/-!
DEFINITION. Machine/Device.lean: the commands of the device as a whole: NOP, FENCE, ABORT, LOG_CLEAR, power state, time, calibration and diagnostics; the
check of a comparator cell's DAC (R283, R342, R347, R365, R369 to R372, R383, R441, R442).
-/

namespace Sys2Proof.Machine

/-! ## NOP, FENCE, ABORT (R342, R343, R347) -/

/-- NOP: the low half of the GTC. -/
def runNop (f : Flight) (s : State) : State := doneWith s f stOk (w32 s.time.gtc)

/-- FENCE: it waits for the commands fetched before it (R347). -/
def runFence (f : Flight) (s : State) : State := if fenceReady s f then done s f stOk else setPhase s f.id .fenced

/-- The bytes of its buffer that a command reads before it is applied (R343, R354, R356, R363, R366): of a bundle, what its TOTAL_LEN says, or its header
where that cannot be right. FW_STAGE reads its chunk as a transfer of its own. -/
def bufferRead (op : Op) (sub : Submission) : Nat :=
  match op with
  | .unitConfigWrite | .hoopForm | .hoopEdit => (bufferNeed op sub).getD 0
  | .seqDefine => Nat.min sub.bufLen ((16 + (parseSeq sub.data).nodes.length + 3) / 4 * 4)
  | .profileLoad | .recipeLoad => if totalLen sub.data ≤ Nat.min sub.bufLen 262144 then Nat.max 32 (totalLen sub.data) else 32
  | _ => 0

/-- How a target of ABORT that has not been executed completes: the RESULT of its ABORTED, none for one that is past that point (R342). -/
def abortable (g : Flight) : Option Nat :=
  match g.phase with
  | .waiting | .scheduled | .deferred => some 0
  | .transfer n => some n
  | .nvmWait => if g.op = .fwStage ∨ g.op = .profileLoad ∨ g.op = .recipeLoad then some (bufferRead g.op g.sub) else none
  | _ => none

/-- The command that an ABORT names. -/
def abortTarget (sub : Submission) : CommandRef := { sq := arg sub 28 1, tag := arg sub 30 2 % 4096, gen := arg sub 30 2 / 4096 }

/-- ABORT (R323, R342, R346): its completion comes after that of its target. -/
def runAbort (f : Flight) (s : State) : State :=
  match flightByRef s (abortTarget f.sub) with
  | none => done s f stRange
  | some g =>
    if g.op = .abort then done s f stUnsupported
    else match abortable g with
      | some n => done (doneWith s g stAborted (w32 n)) f stOk
      | none => setPhase s f.id (.after g.id)

/-! ## LOG_CLEAR (R365, R406, R471) -/

/-- The clearer that a CLEAR record names (R406): 1 the host, 2 the two-wire bus, 3 Paste. -/
def clearerOf : Origin → Nat
  | .host => 1
  | .bus _ => 2
  | .firmware => 3
  | .orphan => 1

/-- LOG_CLEAR: during a brownout warning the CLEAR record waits (R451). -/
def runLogClear (f : Flight) (s : State) : State :=
  if s.fw.rind ≠ .running ∨ s.cave.clearing then done s f stBusy
  else if s.power.brownout then setPhase (s.onCave fun c => { c with clearing := true }) f.id .nvmWait
  else
    let r := clearCave (clearerOf f.origin) s
    doneWith r.1 f stOk (w32 r.2)

/-! ## POWER_STATE (R369, R383, R440 to R442) -/

/-- The power state a TARGET names. -/
def targetMode (t : Nat) : PowerMode := if t = 0 then .run else if t = 1 then .doze else .park

/-- Codes of the power states (R410). -/
def PowerMode.code : PowerMode → Nat
  | .run => 0 | .doze => 1 | .park => 2

/-- PARK is refused (R369, R442): a unit without PARK_KEEP is in ARM to LIMIT, or the Cave is VOLATILE. -/
def parkRefused (s : State) : Bool :=
  s.cave.mode == .volatile || leafNums.any fun u => (leafOf s u).st.active && !(leafOf s (slotOf s u)).env.parkKeep

/-- POWER_STATE. -/
def runPowerState (f : Flight) (s : State) : State :=
  let t := arg f.sub 28 1
  if 2 < t then done s f stRange
  else if targetMode t = s.power.mode then done (s.onPower fun p => { p with parkPending := false }) f stOk
  else if loadRunning s f.id ∨ s.power.next.isSome then done s f stBusy
  else if t = 2 then
    if parkRefused s then done s f stState else done (s.onPower fun p => { p with parkPending := true }) f stOk
  else
    let s := s.onPower fun p => { p with parkPending := false }
    setPhase (s.onPower fun p => { p with next := some (targetMode t) }) f.id .power

/-- The link's speed and width in a power state (R307, R451): 2.5 GT/s x1 in DOZE and during a brownout warning. -/
def relink (s : State) : State :=
  if !s.link.up then s
  else if s.power.mode = .doze ∨ s.power.brownout then s.onLink fun l => { l with speed := 1, width := 1 }
  else s.onLink fun l => { l with speed := l.fullSpeed, width := l.fullWidth }

/-- A bank's buffer that is off is enabled (R240, R241). -/
def refsOn (s : State) : State :=
  [0, 1].foldl (fun s b =>
    if (mbank s b).refOn then s else onBank s b fun k => { k with released := false, rewake := true, refOn := true, refReady := false, refAt := s.time.gtc }) s

/-- The device enters a power state (R241, R440, R441): the event names the state and what woke the device. -/
def enterMode (m : PowerMode) (wake : Nat) (s : State) : State :=
  let s := s.onPower fun p => { p with mode := m, next := none }
  let s := raise s 77 evPowerState (w32 m.code) (w32 wake) 0
  relink (match m with | .run => refsOn s | .doze => releaseRefs s | .park => s)

/-- A change between RUN and DOZE takes effect at a boundary that is a multiple of 3,200 (R383, R441), and its command completes. -/
def modeStep (s : State) : State :=
  match s.power.next with
  | some m =>
    if s.time.gtc % 3200 = 0 then
      let s := enterMode m 0 (closeTick s)
      (s.link.flights.filter fun f => f.phase == .power).foldl (fun s f => done s f stOk) s
    else s
  | none => s

/-! ## TIME_SYNC (R370, R385) -/

/-- A PTM dialogue begins (R385). -/
def beginDialogue (s : State) : State := s.onTime fun t => { t with dialogue := some t.gtc, dialogueAt := t.gtc }

/-- TIME_SYNC. -/
def runTimeSync (f : Flight) (s : State) : State :=
  if !s.link.ptm then done s f stUnsupported
  else if s.time.dialogue.isSome then done s f stBusy
  else setPhase (beginDialogue s) f.id .dialogue

/-! ## CAL_RUN (R371) -/

/-- The slices that a SCOPE calibrates: bank and slice. -/
def calSlices (s : State) (scope : Nat) : List (Nat × Nat) :=
  (if scope = 0 then [0, 1] else [scope - 1]).flatMap fun b => (sliceNums.filter fun k => !bit (mbank s b).failed k && !(mbank s b).bankFail).map fun k => (b, k)

/-- A calibration by CAL_RUN runs. -/
def calRunning (s : State) : Bool := s.link.flights.any fun g => g.phase == .calibration

/-- CAL_RUN. -/
def runCalRun (f : Flight) (s : State) : State :=
  let scope := arg f.sub 28 1
  if 3 < scope ∨ ((scope = 3) = (f.sub.handle = 0)) then done s f stRange
  else if calRunning s then done s f stBusy
  else if scope = 3 then
    let u := handleUnit f.sub.handle
    match (unitAgg s u).1 with
    | .off | .lock | .retired =>
      doneWith (s.onMeas fun m => { m with offsets := (m.offsets ++ maskOf s u).eraseDups }) f stOk 0
    | _ => done s f stState
  else
    let l := calSlices s scope
    if l.isEmpty then doneWith s f stOk 0
    else setPhase (s.onMeas fun m => { m with calRun := l, calFailA := 0, calFailB := 0 }) f.id .calibration

/-! ## The DAC check (R283) -/

/-- A readback passes: within 0.5 % of the expected value and 4 mV. -/
def dacPass (code : Nat) (v : Int) : Bool :=
  let want : Rat := (code : Rat) * 1000 / 512
  decide (ratAbs ((v : Rat) * 2000 / 32768 - want) ≤ want / 200 + 4)

/-- The check of one cell's DAC with its read-back VALUE (R283). -/
def dacCheck (s : State) (c : Nat) (v : Int) : State :=
  let x := cellOf s c
  if dacPass x.code v then (if x.dacFail then setCell s c { x with dacFail := false } else s)
  else raise (setCell s c { x with dacFail := true }) (cellSource c) evCmpDacFail (w32 c) (w32 x.code) (w32i v)

/-! ## DIAG_RUN (R372) -/

/-- A 16-bit signed number from a free choice. -/
def free16 (n : Nat) : Int := signed 16 (n % 65536)

/-- The DAC check of all cells: what the taps read is not in the device's own state, so each VALUE is a free choice (log entry 5). Words written, failures. -/
def dacCheckAll (s : State) : State × List Word32 × Nat :=
  (List.range 344).foldl (fun acc c =>
    let d := draw acc.1
    let v := free16 d.1
    let code := (cellOf d.2 c).code
    let ok := dacPass code v
    (dacCheck d.2 c v, acc.2.1 ++ [w32 (code % 1024 + ofB ok * 32768 + d.1 % 65536 * 65536)], acc.2.2 + ofB (!ok))) (s, [], 0)

/-- Codes of the kinds of lock record (R181). -/
def LockKind.code : LockKind → Nat
  | .cleared => 0 | .damageLock => 1 | .memberDamaged => 2 | .retired => 3 | .retiredDamaged => 4

/-- The bytes of a lock record before its CRC (R181). -/
def lockBody (r : LockRec) : List Byte :=
  [BitVec.ofNat 8 r.unit, BitVec.ofNat 8 r.kind.code, BitVec.ofNat 8 r.verdict, BitVec.ofNat 8 r.esc] ++ toLe r.seq 4 ++ toLe r.opsec 4 ++ [0, 0]

/-- The 16 bytes of a lock record (R181). -/
def lockBytes (r : LockRec) : List Byte := lockBody r ++ toLe (crc16 (lockBody r)).toNat 2

/-- The latest lock record of each of units 0 to 70. -/
def lockDump (s : State) : List Byte :=
  leafNums.flatMap fun u => match latestLock s.nvm u with | some r => lockBytes r | none => List.replicate 16 0

/-- The tile tag dump. -/
def tagDump (s : State) : List Byte := (List.range 8192).flatMap fun t => tagBytes (tagOf s t)

/-- What each TEST writes, in bytes. -/
def testSize (test : Nat) : Nat := if test = 0 then 1376 else if test = 1 then 65536 else 1136

/-- DIAG_RUN. -/
def runDiagRun (f : Flight) (s : State) : State :=
  let test := arg f.sub 28 1
  if 2 < test then done s f stRange
  else if f.sub.bufLen < testSize test then doneWith s f stRange (w32 (testSize test))
  else match test with
    | 0 =>
      let r := dacCheckAll s
      doneWith (bufferWrite r.1 f (r.2.1.flatMap fun w => toLe w.toNat 4)) f stOk (w32 r.2.2)
    | 1 => doneWith (bufferWrite s f (tagDump s)) f stOk 0
    | _ => doneWith (bufferWrite s f (lockDump s)) f stOk 0

end Sys2Proof.Machine
end

