-- ==== Sys2Proof/Machine/Serve.lean ====
section
/-!
DEFINITION. Machine/Serve.lean: how Paste starts the commands it holds, how the Press takes in scheduled and deferred ones, and how commands that wait for
something end; the host commands as rows of their own (R138, R321, R338 to R342, R347, R348, R451).
-/

namespace Sys2Proof.Machine

/-- A command that has passed the common checks does what its opcode says. -/
def runOp (f : Flight) (s : State) : State :=
  match f.op with
  | .nop => runNop f s
  | .fence => runFence f s
  | .abort => runAbort f s
  | .unitOn => runUnitOn f s
  | .unitOff => runUnitOff f s
  | .unitPwm => runUnitPwm f s
  | .unitResetLock => runUnitResetLock f s
  | .unitRetire => runUnitRetire f s
  | .unitRestore => runUnitRestore f s
  | .unitConfigRead => runUnitConfigRead f s
  | .unitConfigWrite => runUnitConfigWrite f s
  | .hoopForm => runHoopForm f s
  | .hoopEdit => runHoopEdit f s
  | .hoopDissolve => runHoopDissolve f s
  | .telemSnapshot => runTelemSnapshot f s
  | .streamStart => runStreamStart f s
  | .streamStop => runStreamStop f s
  | .captureArm => runCaptureArm f s
  | .captureRead => runCaptureRead f s
  | .seqDefine => runSeqDefine f s
  | .seqTrigger => runSeqTrigger f s
  | .logRead => runLogRead f s
  | .logClear => runLogClear f s
  | .profileLoad => runProfileLoad f s
  | .recipeLoad => runRecipeLoad f s
  | .fwStage => runFwStage f s
  | .fwActivate => runFwActivate f s
  | .fwRollback => runFwRollback f s
  | .powerState => runPowerState f s
  | .timeSync => runTimeSync f s
  | .calRun => runCalRun f s
  | .diagRun => runDiagRun f s

/-! ## Buffers in bulk tiles (R19, R20, R289, R291, R294) -/

/-- The bulk tiles that a command takes before it can start: for what it reads, or one through which what it writes passes. -/
def bulkNeed (f : Flight) : Nat :=
  match f.op with
  | .unitConfigRead | .telemSnapshot | .diagRun => 1
  | .timeSync => if f.sub.bufAddr = 0 then 0 else 1
  | op => tilesFor (bufferRead op f.sub)

/-- A command's buffer read into bulk tiles, or the tile taken through which its data will pass (R19, R291, R294). -/
def stageBuffer (f : Flight) (s : State) : State :=
  let n := bufferRead f.op f.sub
  let r := if n = 0 then takeTiles 69 (bulkNeed f) s else stageBytes 69 (slice f.sub.data 0 n) (useRange f.sub.bufAddr n s)
  r.1.onLink fun l => { l with flights := l.flights.map fun g => if g.id = f.id then { g with tiles := g.tiles ++ r.2 } else g }

/-- A command's buffer is neither pageable nor without use (R298, R300). -/
def pinnedBuffer (f : Flight) : Bool :=
  (bufferNeed f.op f.sub).isSome && match f.op with | .logRead | .captureRead | .fwStage => false | _ => true

/-- A fault meets a command's pinned buffer (R300): DMA_FAULT, and it completes with XLATE and has no effect. -/
def bufferFault (f : Flight) (s : State) : State :=
  doneWith (raise s 114 evDmaFault (w32 f.sub.bufAddr) (w32 (f.sub.bufAddr / 4294967296)) 50) f stXlate 0

/-- A command does what its opcode says, once its buffer has passed the checker: a tile that fails ends it with TILE_CRC and the offset of the first byte
lost (R20, R289). -/
def applyOp (f : Flight) (s : State) : State :=
  match f.tiles.findIdx? (unreadable s) with
  | some i => doneWith (failRef s 69 (f.tiles.getD i (8192, 0))) f stTileCrc (w32 (512 * i))
  | none => runOp f s

/-! ## Starting (R321, R338, R340, R451) -/

/-- Opcodes whose writes to the non-volatile memories wait for the end of a brownout warning (R451). -/
def waitsForNvm (op : Op) : Bool := op == .fwStage || op == .profileLoad || op == .recipeLoad

/-- What refuses a command whose writes wait for the end of a brownout warning, as it comes: another operation of its kind is in progress (R366, R367). -/
def nvmRefusal (s : State) (f : Flight) : Option Nat := if f.op = .fwStage then stageRefusal s f else if loadRunning s f.id then some stBusy else none

/-- A command whose buffer has been read waits for the end of a brownout warning, waits for its TIME in the Press, or is applied (R340, R451). -/
def beginFlight (f : Flight) (s : State) : State :=
  if f.sub.fault ∧ pinnedBuffer f then bufferFault f s
  else if s.power.brownout ∧ waitsForNvm f.op then
    match nvmRefusal s f with
    | some st => done s f st
    | none => setPhase s f.id .nvmWait
  else if f.sub.time ≠ 0 then
    if 256 ≤ scheduledCount s then done s f stBusy else setPhase s f.id .scheduled
  else applyOp f s

/-- A command that nothing holds back starts; it waits until it has the bulk tiles it needs (R294). -/
def startFlight (f : Flight) (s : State) : State :=
  if !f.tiles.isEmpty ∨ bulkNeed f = 0 then beginFlight f s
  else if !tilesAvailable s 69 (bulkNeed f) then noteWait f s
  else
    let s := stageBuffer f s
    match flightOf s f.id with
    | some f => beginFlight f s
    | none => s

/-- A command that waited for the end of a brownout warning goes on (R451, R452). -/
def resumeNvm (f : Flight) (s : State) : State :=
  applyOp f (if f.op = .logClear then s.onCave fun c => { c with clearing := false } else s)

/-- The conversions an URGENT snapshot still waits for are requested again where a bank's queue was full (R250, R358). -/
def renewUrgent (f : Flight) (got : List (Nat × Word32)) (s : State) : State :=
  ((urgentNodes f.sub).filter fun n => !got.any fun p => p.1 == n).foldl requestUrgent s

/-- One entry of the in-flight table looked at: what it waits for may have come. -/
def pumpOne (s : State) (id : Nat) : State :=
  match flightOf s id with
  | none => s
  | some f =>
    match f.phase with
    | .waiting => if heldBack s f then s else startFlight f s
    | .fenced => if fenceReady s f then done s f stOk else s
    | .nvmWait => if s.power.brownout ∨ s.fw.rind ≠ .running then s else resumeNvm f s
    | .after t => if (flightOf s t).isNone then done s f stState else s
    | .urgent got _ => renewUrgent f got s
    | _ => s

/-- Transfers whose page is translated move on; a paused one for which no request could be issued issues it now (R297, R298). -/
def pumpXfers (s : State) : State :=
  s.link.xfers.foldl (fun s p =>
    match Tbl.find s.link.xfers p.1 with
    | some x =>
      if x.prg.isSome then s
      else if translated s x.addr then resumeXfer s p.1 x
      else if x.paused ∧ mayPage s x ∧ s.link.prgs.length < 32 then requestPage s p.1 x
      else s
    | none => s) s

/-- The in-flight table and the transfers gone through once, while Paste serves. -/
def pump (s : State) : State :=
  if s.fw.paste = .serving then pumpXfers ((s.link.flights.map (·.id)).foldl pumpOne s) else s

/-! ## Ends of attempts and sequences (R55, R57, R138, R348) -/

/-- A command whose tick has ended, a UNIT_ON whose attempt has ended, or a command whose sequence has run completes; what Paste waits for, only while it serves.
A command whose hoop is there no more completes with STATE (DESIGN CHOICE, log entry 117). -/
def settleOne (s : State) (id : Nat) : State :=
  match flightOf s id with
  | none => s
  | some f =>
    match f.phase with
    | .applied st => endApplied s f st
    | .attempt u =>
      let v := vleaf s (evalUnit s u)
      if s.fw.paste ≠ .serving then s
      else (match v.st with
        | .on | .limit => done s f stOk
        | .arm | .ramp => s
        | _ => done s f (v.ended % 256))
    | .sequence h =>
      if s.fw.paste ≠ .serving then s
      else (match hoopOf s h with
        | none => done s f stState
        | some x => if x.seq = .idle ∧ x.ending.isNone then done s f stOk else s)
    | _ => s

/-- The ends of a tick. -/
def settle (s : State) : State := (s.link.flights.map (·.id)).foldl settleOne s

/-! ## Hoops (R53, R374) -/

/-- The aggregate of one hoop published, with HOOP_STATE where it has changed (R53, R374). -/
def publishHoop (s : State) (n : Nat) : State :=
  match hoopOf s n with
  | none => s
  | some h =>
    let a := unitAgg s n
    let pg := unitPg s n
    if h.aggSt = a.1 ∧ h.mixed = a.2 ∧ h.pg = pg then s
    else
      let s := setHoop s n { h with aggSt := a.1, mixed := a.2, pg := pg }
      raiseP s n evHoopState (stateWord s n) 0 0

/-- ROOT's aggregate published (R53, R374). -/
def publishRoot (s : State) : State :=
  let a := unitAgg s 255
  let pg := unitPg s 255
  if s.press.rootSt = a.1 ∧ s.press.rootMixed = a.2 ∧ s.press.rootPg = pg then s
  else
    let s := s.onPress fun p => { p with rootSt := a.1, rootMixed := a.2, rootPg := pg }
    raiseP s 255 evHoopState (stateWord s 255) 0 0

/-- The aggregates of a tick (R53). -/
def publish (s : State) : State := publishRoot ((hoopNums s).foldl publishHoop s)

/-! ## What the tick in progress still brings (R39, R53, R97, R103) -/

/-- What a change of a leaf's state brings in the later steps of its tick: power-good drops (R124), and the deviations of an ended ramp are counted (R186). -/
def leafTail (s : State) (u : Nat) : State :=
  let v := vleaf s u
  let s := if v.pg ∧ ¬ (v.st = .on ∨ v.st = .limit) then raiseP (onV s u fun l => { l with pg := false, pgUs := 0 }) (eventUnit s u) evPgChange 0 0 0 else s
  countRamp s u

/-- Sequences aborted and advanced, aggregates and pins, a hoop after those inside it (R53, R55, R57, R58, R126). The causes of a tick are weighed, then those that
the aborts themselves have brought to sequences inside. -/
def hoopPhase (s : State) : State :=
  let hs := hoopsUp s
  let s := hs.foldl (fun s h => weigh h s) (hs.foldl (fun s h => weigh h s) s)
  pgoutStep (publish (hs.foldl seqAdvance s))

/-- The tick in progress after a command of it: its later steps, its hoops, the AUTO offsets, the commands that end with it. -/
def tickTail (s : State) : State :=
  settle ([0, 1, 2, 3].foldl restagger (hoopPhase ((slots s).foldl leafTail s)))

/-- The device works on its clocks: it is not in reset, not in PARK, and CK_MAIN has not failed (R18, R439, R457). -/
def clocked (s : State) : Bool := !s.power.booting && s.power.mode != .park && !s.power.clockFail

/-- FAULT_L is asserted (R456). -/
def faultL (s : State) : Bool :=
  s.power.booting || s.power.clockFail || s.fw.rind == .absent || s.fw.paste == .down || s.fw.safeHold

/-- The level bits of the status word (R476). -/
def busLevels (s : State) : Word16 :=
  BitVec.ofNat 16 (ofB s.link.hostLost * 8 + ofB (faultL s) * 16 + ofB (s.fw.paste == .down) * 256 + ofB s.fw.safeHold * 512
    + ofB (leafNums.any fun u => (leafOf s u).diag.uncontrollable) * 1024)

/-- The status word (R476). -/
def statusWord (s : State) : Word16 := busLevels s ||| s.bus.latched

/-- The rises of level bits latch, and a Host Notify falls due when a bit of (status word AND NOTIFY_MASK) rises (R476, R477). -/
def busStep (s : State) : State :=
  let lv := busLevels s
  s.onBus fun b =>
    let latched := b.latched ||| (lv &&& ~~~ b.levels)
    let masked := (lv ||| latched) &&& b.notifyMask
    { b with latched := latched, levels := lv, maskedSeen := masked, notifyDue := b.notifyDue || (masked &&& ~~~ b.maskedSeen) != 0 }

/-- The end of every row: the events the Press has raised join those of the tick in progress, and the status word follows the levels (R375, R476). -/
def rowEnd (s : State) : State := busStep (joinTick s)

/-- What follows every row: captures take their rows, commands go on, the tick in progress brings what the row's changes bring in it, tiles that failed are tested
and page failures reported, then the row ends. Without its clocks nothing goes on, and an event waits (R375). -/
def afterRow (s : State) : State := if clocked s then rowEnd (reportFaults (claimTested (tickTail (pump (copyCaptures s))))) else s

/-! ## Scheduled and deferred commands in a tick (R340, R341) -/

/-- The Press takes a scheduled action in more than LATE_TOL after its TIME (R340, R390). -/
def isLate (s : State) (f : Flight) : Bool := decide (f.sub.time + usGtc s.time.lateTol < s.time.gtc)

/-- The checks a scheduled action meets again in its execution tick (R29, R65, R340, R422): its handle; for a command of the device's own, all of them. -/
def recheck (s : State) (f : Flight) : Option Nat :=
  if f.origin = .firmware then commonChecks s f.op { f.sub with time := 0 } else check3 s f.op f.sub

/-- A command taken in by the Press. -/
def takeIn (f : Flight) (s : State) : State :=
  if f.sub.time = 0 then applyOp f s
  else if isLate s f then done s f stLate
  else match recheck s f with
    | some st => doneWith s f st 0
    | none => applyOp f s

/-- The commands that the Press takes in in this tick: the scheduled actions that are due, in the order they were fetched, then what waited (R341). -/
def dueFlights (s : State) : List Nat :=
  let due := s.link.flights.filter fun f => decide (f.sub.time ≠ 0 ∧ f.sub.time ≤ s.time.gtc) && (f.phase == .scheduled || f.phase == .deferred)
  let imm := s.link.flights.filter fun f => f.sub.time == 0 && f.phase == .deferred
  (due ++ imm).map (·.id)

/-- One of them, if it still stands. -/
def takeInOne (s : State) (id : Nat) : State :=
  match flightOf s id with
  | some f => if f.phase = .scheduled ∨ f.phase = .deferred then takeIn f s else s
  | none => s

/-- The commands of a tick taken in (R21, R340, R341, R389). -/
def takeDue (s : State) : State := (dueFlights s).foldl takeInOne s

/-- SCHEDULED_ACTION: the first scheduled action that is due is taken in (R340, R390). -/
def scheduledActionOp (s : State) : State :=
  match s.link.flights.find? fun f => f.phase == .scheduled && decide (f.sub.time ≤ s.time.gtc) with
  | some f => takeIn f s
  | none => s

/-! ## A command of the host as a row of its own (R321, R338) -/

/-- A submission handled by Paste: parsed, and started where nothing holds it back. Without a serving Paste nothing is fetched (R339, R420, R428), nor from a
ring that does not exist (log entry 74). -/
def hostCommand (op : Op) (sub : Submission) (s : State) : Host.Outcome State Fault Refusal :=
  if 16 ≤ sub.sq ∨ s.fw.paste ≠ .serving ∨ ¬ clocked s then .next s
  else .next (afterRow (parseCommand s op sub))

end Sys2Proof.Machine
end

