-- ==== Sys2Proof/Machine/Tick.lean ====
section
/-!
DEFINITION. Machine/Tick.lean: the protection tick: the passing of time, the six steps over all leaves, sequences, hoops, and the hand-over (R21, R53, R103 to
R106, R374, R382, R383, R386, R398).
-/

namespace Sys2Proof.Machine

/-- The Press runs (R18, R141, R439). -/
abbrev pressRuns (s : State) : Bool := clocked s

/-! ## Time (R382, R386, R398) -/

/-- The range of the root PLL's trim and the largest offset for slewing, in 0.01 ppm (R386). -/
def trimRange (s : State) : Nat := if s.fw.clkRef then 1000 else 10000
def slewRange (s : State) : Nat := if s.fw.clkRef then 500 else 5000

/-- A tick of slewing (R386): the error shrinks by what the trim's offset makes the clock gain; at its end the trim is at its rate value. -/
def slewStep (s : State) : State :=
  let t := s.time
  if t.slewLeft = 0 then s
  else
    let r : Int := trimRange s
    let off := clampI (-r - t.rateTrim) (r - t.rateTrim) (if 0 < t.slewLeft then (slewRange s : Int) else -(slewRange s : Int))
    let move := off * (tickGtc s : Int)
    if t.slewLeft.natAbs ≤ move.natAbs then
      s.onTime fun t => { t with slewLeft := 0, slewing := false, trim := t.rateTrim, trimAtLimit := t.rateTrim.natAbs == trimRange s }
    else
      s.onTime fun t => { t with slewLeft := t.slewLeft - move, trim := t.rateTrim + off, trimAtLimit := (t.rateTrim + off).natAbs == trimRange s }

/-- OPSEC after some GTC counts of operation (R398). -/
def countOpsec (s : State) (n : Nat) : State :=
  let x := s.time.subsec + n
  (s.onTime fun t => { t with subsec := x % 400000000 }).onPower fun p => { p with opsec := satN 4294967295 (p.opsec + x / 400000000) }

/-- The periodic triggers that a stretch of time has passed (R252): each GTC that is a multiple of the period. -/
def periodicTriggers (n : Nat) (s : State) : State :=
  (List.range 8).foldl (fun s id =>
    match Tbl.find s.meas.seqs id with
    | some q =>
      let p := q.trigArg * 400
      if q.trigKind = 3 ∧ p ≠ 0 ∧ s.time.gtc < s.time.gtc / p * p + n then seqTrigger s id (s.time.gtc / p * p) else s
    | none => s) s

/-- Time moves to the next tick boundary (R103, R382, R383): by one tick, or by less after a wake that fell between two. -/
def advance (s : State) : State :=
  let n := tickGtc s - s.time.gtc % tickGtc s
  periodicTriggers n (slewStep (countOpsec (pollTime n (s.onTime fun t => { t with gtc := (t.gtc + n) % 18446744073709551616 })) n))

/-- The off time of a regulator power cycle runs (R220). -/
def regCycleTime (s : State) : State :=
  let us := tickUs s
  s.onPress fun p => { p with regCycle := p.regCycle.map fun c => (c.1 - us, c.2) }

/-! ## The takeover of a failed bank (R242) -/

/-- A sequence of the bank that takes over is suspended (R242): the words its burst had still to deliver are lost with CAUSE 2 (R255). -/
def suspendSeq (s : State) (id : Nat) : State :=
  match Tbl.find s.meas.seqs id with
  | none => s
  | some q =>
    let s := match streamOf s id, q.burst with
      | some (r, x), some (_, start, _) => setStream s r (loseWords x (q.nodes.length - q.entry) start 2)
      | _, _ => s
    let s := setSeq s id { q with suspended := true, burst := none, armed := none, latch := none, acc := [] }
    raise s (119 + q.bank) evSeqSuspended (w32 id) 0 0

/-- The other bank takes over from a failed one. -/
def takeOver (b : Nat) (s : State) : State :=
  let o := 1 - b
  let s := onBank s o fun k => { k with takeover := true }
  (List.range 8).foldl (fun s id =>
    match Tbl.find s.meas.seqs id with
    | some q => if q.bank = o ∧ ¬ q.suspended then suspendSeq s id else s
    | none => s) s

/-- The takeovers that a declaration before this tick brings (R242): within two ticks, here at the first. -/
def takeOverStep (s : State) : State :=
  [0, 1].foldl (fun s b => if (mbank s b).bankFail ∧ ¬ (mbank s (1 - b)).bankFail ∧ ¬ (mbank s (1 - b)).takeover then takeOver b s else s) s

/-! ## The tick -/

/-- A step of R105 for every leaf (R103, R104). -/
def allLeaves (step : State → Nat → State) (s : State) : State := (slots s).foldl step s

/-- What is taken in at the boundary (R103): the latched inputs, the comparator outputs, a hoop-table swap. -/
def boundary (inp : TickInputs) (s : State) : State :=
  swapOp (pumpStep (ntcStep (readCells (takeCells (latchInputs s inp)))))

/-- Steps 1 to 4 (R105, R185). -/
def steps1to4 (s : State) : State :=
  let s := allLeaves imbalanceStep (allLeaves step1 s)
  let s := [68, 69].foldl regOvStep s
  let s := allLeaves step2 s
  let s := allLeaves step3 s
  let s := [64, 65, 66, 67].foldl (fun s f => feedLossOp f s) s
  allLeaves step4 s

/-- Step 5 (R38, R105): trips, commands, then the timer-driven transitions and the steps of sequences. -/
def steps5 (s0 : State) : State :=
  let s0 := allLeaves timers s0
  let s := takeDue (allLeaves tripStep s0)
  let s := allLeaves (timedStep s0) s
  (hoopNums s).foldl (fun s h => offSequenceStepOp h (sequenceStepOp h s)) s

/-- Step 6, HOLD, the diagnostic checks and E_LOAD (R105, R168, R208, R258). -/
def steps6 (s : State) : State :=
  let s := holdStep (allLeaves step6 s)
  leafNums.foldl loadStep ((List.range 64).foldl diagStep s)

/-- Rind clears the flags and the counter of an edge register together, once it has read them; when it comes to one is a free choice (R276, log entry 118). -/
def rindClears (s : State) : State :=
  if s.fw.rind ≠ .running then s
  else (List.range 9).foldl (fun s k =>
    if (Tbl.get {} s.cmp.edges k).count = 0 then s
    else
      let d := draw s
      if d.1 % 2 = 0 then clearEdge d.2 k else d.2) s

/-- A tick begins (R103, R341): the events of the one before have entered the router, and no leaf has been served. -/
def openTick (s : State) : State :=
  (closeTick s).onPress fun p => { p with served := [], leaves := p.leaves.map fun x => (x.1, { x.2 with offNow := 0 }) }

/-- A protection tick, from its boundary to its hoops (R103): the rows up to the next are rows of this tick, and its events are handed over when the next
begins (log entry 26). -/
def runTick (inp : TickInputs) (s : State) : State :=
  let s := takeOverStep (regCycleTime (advance (codeReads (rindClears (openTick s)))))
  let s := (hoopNums s).foldl seqTime s
  let s := steps6 (steps5 (steps1to4 (boundary inp s)))
  let s := modeStep (gapStep (afterRow s))
  if clocked s then rowEnd s else s

/-- PROTECTION_TICK (R105). -/
def execProtectionTick (inp : TickInputs) (s : State) : Host.Outcome State Fault Refusal :=
  if pressRuns s then .next (runTick inp s) else .next s

/-! ## The other rows of the Press -/

/-- A row that the Press decides; it changes nothing while the Press does not run, or where its operand names nothing the part has (log entry 74). -/
def pressRow (known : Bool) (op : State → State) (s : State) : Host.Outcome State Fault Refusal :=
  if known ∧ pressRuns s then .next (afterRow (op s)) else .next s

/-- SCHEDULED_ACTION (R340). -/
def execScheduledAction (s : State) : Host.Outcome State Fault Refusal := pressRow true scheduledActionOp s

/-- HOOP_TABLE_SWAP (R61). -/
def execHoopTableSwap (s : State) : Host.Outcome State Fault Refusal := pressRow true swapOp s

/-- A row about one leaf. -/
def leafRow (u : Nat) (op : State → State) (s : State) : Host.Outcome State Fault Refusal := pressRow (decide (u < 71)) op s

/-- PREFLIGHT (R158). -/
def execPreflight (unit : Nat) (s : State) : Host.Outcome State Fault Refusal := leafRow unit (preflightOp unit) s

/-- RAMP_DONE (R81). -/
def execRampDone (unit : Nat) (s : State) : Host.Outcome State Fault Refusal := leafRow unit (rampDoneOp unit) s

/-- FAULT_TIMER_EXPIRY (R113). -/
def execFaultTimerExpiry (unit : Nat) (s : State) : Host.Outcome State Fault Refusal := leafRow unit (faultTimerExpiryOp unit) s

/-- RETRY (R129). -/
def execRetry (unit : Nat) (s : State) : Host.Outcome State Fault Refusal := leafRow unit (retryOp unit) s

/-- T_ARM_EXPIRY (R37). -/
def execTArmExpiry (unit : Nat) (s : State) : Host.Outcome State Fault Refusal := leafRow unit (tArmOp unit) s

/-- SEAT_CONFIRM (R133). -/
def execSeatConfirm (unit : Nat) (s : State) : Host.Outcome State Fault Refusal := leafRow unit (seatConfirmOp unit) s

/-- PG_CHANGE (R123). -/
def execPgChange (unit : Nat) (s : State) : Host.Outcome State Fault Refusal := leafRow unit (pgChangeOp unit) s

/-- RAMP_STALL (R116). -/
def execRampStall (unit : Nat) (s : State) : Host.Outcome State Fault Refusal := leafRow unit (rampStallOp unit) s

/-- RAMP_STALL_CLEAR (R118). -/
def execRampStallClear (unit : Nat) (s : State) : Host.Outcome State Fault Refusal := leafRow unit (rampStallClearOp unit) s

/-- CLEAN_INTERVAL (R130). -/
def execCleanInterval (unit : Nat) (s : State) : Host.Outcome State Fault Refusal := leafRow unit (cleanOp unit) s

/-- LT_CLEAR (R153). -/
def execLtClear (unit : Nat) (s : State) : Host.Outcome State Fault Refusal := leafRow unit (ltClearOp unit) s

/-- A row about a bank pump. -/
def pumpRow (b : Nat) (op : State → State) (s : State) : Host.Outcome State Fault Refusal :=
  pressRow (decide (b < 4)) op s

/-- CP_UV (R73). -/
def execCpUv (bank : Nat) (s : State) : Host.Outcome State Fault Refusal := pumpRow bank (cpUvOp bank) s

/-- CP_FAIL and the trips it brings in its tick: those of the bank's conducting units, with what else step 1 decides for them (R73, R105, R120, R132). -/
def cpFailNow (b : Nat) (s : State) : State :=
  if (pumpOf s b).fail then s
  else
    let s := cpFailOp b s
    if (pumpOf s b).fail then ((slots s).filter fun u => leafKind u == .channel && bankOf u == b && (vleaf s u).st.conducting).foldl (fun s u => tripStep (step1 s u) u) s else s

/-- CP_FAIL (R73). -/
def execCpFail (bank : Nat) (s : State) : Host.Outcome State Fault Refusal := pumpRow bank (cpFailNow bank) s

/-- CP_RECOVER (R73). -/
def execCpRecover (bank : Nat) (s : State) : Host.Outcome State Fault Refusal := pumpRow bank (cpRecoverOp bank) s

/-- A row about a hoop. -/
def hoopRow (h : Nat) (op : State → State) (s : State) : Host.Outcome State Fault Refusal :=
  pressRow (decide (128 ≤ h ∧ h < 255)) op s

/-- SEQUENCE_STEP (R55). -/
def execSequenceStep (hoop : Nat) (s : State) : Host.Outcome State Fault Refusal := hoopRow hoop (sequenceStepOp hoop) s

/-- SEQ_ABORT (R58). -/
def execSeqAbort (hoop : Nat) (s : State) : Host.Outcome State Fault Refusal := hoopRow hoop (seqAbortOp hoop) s

/-- OFF_SEQUENCE_STEP (R57). -/
def execOffSequenceStep (hoop : Nat) (s : State) : Host.Outcome State Fault Refusal := hoopRow hoop (offSequenceStepOp hoop) s

/-- A row about a channel's diagnostic check, which the Press evaluates. -/
def channelRow (ch : Nat) (op : State → State) (s : State) : Host.Outcome State Fault Refusal :=
  pressRow (decide (ch < 64)) op s

/-- A diagnostic check of a channel: none runs while the buffer of its current node's bank is off (R241). -/
def checkedRow (ch : Nat) (op : State → State) (s : State) : Host.Outcome State Fault Refusal :=
  channelRow ch (fun s => if bankReleased s ch then s else op s) s

/-- OFF_STATE_CHECK (R170). -/
def execOffStateCheck (ch : Nat) (s : State) : Host.Outcome State Fault Refusal := checkedRow ch (offStateOp ch) s

/-- BACKFEED_END (R172). -/
def execBackfeedEnd (ch : Nat) (s : State) : Host.Outcome State Fault Refusal := checkedRow ch (backfeedEndOp ch) s

/-- GATE_CHECK (R173). -/
def execGateCheck (ch : Nat) (s : State) : Host.Outcome State Fault Refusal := checkedRow ch (gateCheckOp ch) s

/-- STALL_EXAMINATION (R174). -/
def execStallExamination (ch : Nat) (s : State) : Host.Outcome State Fault Refusal := checkedRow ch (stallExaminationOp ch) s

/-- OPEN_CHECK (R175). -/
def execOpenCheck (ch : Nat) (s : State) : Host.Outcome State Fault Refusal := checkedRow ch (openCheckOp ch) s

/-- IMBALANCE (R185). -/
def execImbalance (ch : Nat) (s : State) : Host.Outcome State Fault Refusal := checkedRow ch (imbalanceOp ch) s

/-! ## The rows of the drive stage, the feeds, HOLD and the regulators -/

/-- Protection that needs no clock acts in every state but reset (R15, R18, R90, R141); a row whose operand names nothing the part has changes nothing (log
entry 74). -/
def clocklessRow (known : Bool) (op : State → State) (s : State) : Host.Outcome State Fault Refusal :=
  if known ∧ ¬ s.power.booting then .next (afterRow (op s)) else .next s

/-- The trip, short-circuit, reverse and VIN cells of a leaf are powered (R110, R269): in PARK those of park-kept units and feeds, but no trip cell that
watches an imbalance. -/
def cellPowered (s : State) (u : Nat) : Bool := s.power.mode != .park || (slotOf s u == u && (leafOf s u).env.parkKeep)

/-- A row of a comparator cell of a leaf that acts with no clock; what the cell's input then is shows at the next boundary that sees it. -/
def cellRow (known : Bool) (u c : Nat) (op : State → State) (s : State) : Host.Outcome State Fault Refusal :=
  clocklessRow known (fun s => if cellPowered s u then op (onCell s c fun x => { x with input := none }) else s) s

/-- T_RECOVER_EXPIRY (R204): feed 0 to 3. -/
def execTRecoverExpiry (feed : Nat) (s : State) : Host.Outcome State Fault Refusal :=
  pressRow (decide (feed < 4)) (tRecoverOp (64 + feed)) s

/-- TRIP_CELL_FIRE (R90). -/
def execTripCellFire (ch : Nat) (s : State) : Host.Outcome State Fault Refusal := cellRow (decide (ch < 64)) ch ch (tripCellFireOp ch) s

/-- CYCLE_TRIP (R100). -/
def execCycleTrip (ch : Nat) (s : State) : Host.Outcome State Fault Refusal := cellRow (decide (ch < 64)) ch ch (cycleTripOp ch) s

/-- PWM_PERIOD_START (R95). -/
def execPwmPeriodStart (ch : Nat) (s : State) : Host.Outcome State Fault Refusal := channelRow ch (pwmPeriodStartOp ch) s

/-- PWM_OFF_EDGE (R94). -/
def execPwmOffEdge (ch : Nat) (s : State) : Host.Outcome State Fault Refusal := channelRow ch (pwmOffEdgeOp ch) s

/-- CMP_BLANK_END (R272). -/
def execCmpBlankEnd (ch : Nat) (s : State) : Host.Outcome State Fault Refusal := channelRow ch (cmpBlankEndOp ch) s

/-- GATE_SINK_DONE (R75): in reset too, which sinks the gates (R455). -/
def execGateSinkDone (unit : Nat) (s : State) : Host.Outcome State Fault Refusal := if unit < 71 then .next (afterRow (gateSinkDoneOp unit s)) else .next s

/-- FEED_SHORT (R199): feed 0 to 3. -/
def execFeedShort (feed : Nat) (s : State) : Host.Outcome State Fault Refusal := cellRow (decide (feed < 4)) (64 + feed) (256 + feed) (feedShortOp (64 + feed)) s

/-- FEED_REVERSE (R198). -/
def execFeedReverse (feed : Nat) (s : State) : Host.Outcome State Fault Refusal := cellRow (decide (feed < 4)) (64 + feed) (260 + feed) (feedReverseOp (64 + feed)) s

/-- FEED_REVERSE_RELEASE (R276). -/
def execFeedReverseRelease (feed : Nat) (s : State) : Host.Outcome State Fault Refusal :=
  cellRow (decide (feed < 4)) (64 + feed) (260 + feed) (feedReverseReleaseOp (64 + feed)) s

/-- FEED_CONDUCT (R197). -/
def execFeedConduct (feed : Nat) (s : State) : Host.Outcome State Fault Refusal := cellRow (decide (feed < 4)) (64 + feed) (260 + feed) (feedConductOp (64 + feed)) s

/-- FEED_LOSS (R203). -/
def execFeedLoss (feed : Nat) (s : State) : Host.Outcome State Fault Refusal := clocklessRow (decide (feed < 4)) (feedLossOp (64 + feed)) s

/-- FEED_VIN_OV (R199). -/
def execFeedVinOv (feed : Nat) (s : State) : Host.Outcome State Fault Refusal := cellRow (decide (feed < 4)) (64 + feed) (268 + feed) (feedVinOvOp (64 + feed)) s

/-- SEAT_RELEASE (R134): pins 0 to 7 SEAT0 to SEAT7, 8 to 15 MATE0A, MATE0B to MATE3B. -/
def execSeatRelease (pin : Nat) (s : State) : Host.Outcome State Fault Refusal := clocklessRow (decide (pin < 16)) (seatReleaseOp pin) s

/-- XTRIP_CHANGE (R394). -/
def execXtripChange (low : Bool) (s : State) : Host.Outcome State Fault Refusal := clocklessRow true (xtripChangeOp low) s

/-- HOLD_RELEASE (R211). -/
def execHoldRelease (s : State) : Host.Outcome State Fault Refusal := clocklessRow true holdReleaseOp s

/-- HOLD_RELEASE_END (R213). -/
def execHoldReleaseEnd (s : State) : Host.Outcome State Fault Refusal := clocklessRow true holdReleaseEndOp s

/-- REG_OV (R218): regulator 0 or 1. -/
def execRegOv (reg : Nat) (s : State) : Host.Outcome State Fault Refusal := clocklessRow (decide (reg < 2)) (regOvOp (68 + reg)) s

/-- REGULATOR_POWER_CYCLE (R220). -/
def execRegulatorPowerCycle (s : State) : Host.Outcome State Fault Refusal := pressRow true regulatorCycleOp s

/-- FALLBACK_RECYCLE (R333). -/
def execFallbackRecycle (s : State) : Host.Outcome State Fault Refusal := pressRow true fallbackRecycleOp s

end Sys2Proof.Machine
end

