-- ==== Sys2Proof/Machine/Measurement.lean ====
section
/-!
DEFINITION. Machine/Measurement.lean: conversions, gain, plausibility, references, slices, bursts, captures and the DAC rotation (R227 to R264, R283).
-/

namespace Sys2Proof.Machine

/-! ## Samples (R234 to R238) -/

/-- Codes of the qualities (R237). -/
def Quality.code : Quality → Nat
  | .valid => 0 | .settling => 1 | .clipped => 2 | .suspect => 3

/-- The quality of a code. -/
def qualityOf (c : Nat) : Quality := if c = 0 then .valid else if c = 1 then .settling else if c = 2 then .clipped else .suspect

/-- The clip value of a gain code (R236). -/
def clipValue (g : Nat) : Int := [32767, 16384, 8192, 4096].getD g 32767

/-- The clip value of a node in the range in use. -/
def nodeClip (s : State) (n : Nat) : Int := if isCurrentNode n then clipValue (nodeOf s n).gain else 32767

/-- A slice is declared failed (R245). -/
def sliceFailed (s : State) (b k : Nat) : Bool := bit (mbank s b).failed k

/-- A conversion's VALUE and quality (R236 to R238). -/
def sampleOf (s : State) (b k n : Nat) (raw : Int) : Int × Quality :=
  let d := nodeOf s n
  let l := nodeClip s n
  let q := if !(mbank s b).refReady || d.plausFail || (mbank s b).bankFail || sliceFailed s b k || ((mbank s b).repairing.map (·.1)) == some k then
      Quality.suspect
    else if l < raw ∨ raw < -l then .clipped
    else if s.time.gtc < d.settleUntil then .settling
    else .valid
  (clampI (-l) l raw, q)

/-- A sample word (R235). -/
def sampleWord (plaus : Bool) (b q k n : Nat) (v : Int) : Word32 :=
  w32 (ofB plaus * 2147483648 + b % 2 * 1073741824 + q % 4 * 268435456 + k % 16 * 16777216 + n % 256 * 65536 + (v % 65536).toNat)

/-- A marked sample counted (R238, R259). -/
def countQuality (s : State) (b : Nat) (q : Quality) : State :=
  let up (n : Nat) : Nat := satN 4294967295 (n + 1)
  match q with
  | .valid => s
  | .settling => onBank s b fun k => { k with cntSettling := up k.cntSettling }
  | .clipped => onBank s b fun k => { k with cntClipped := up k.cntClipped }
  | .suspect => onBank s b fun k => { k with cntSuspect := up k.cntSuspect }

/-- The leaf whose current a node is. -/
def leafOfCurrent (n : Nat) : Option Nat := leafNums.find? fun u => iNode u == n

/-- The gain of a node in AUTO after a sample (R234). -/
def autoGain (s : State) (u n : Nat) (v : Int) (q : Quality) : State :=
  let d := nodeOf s n
  let l := clipValue d.gain
  if leafKind u = .regulator ∨ soft s u fMeasGain ≠ 4 then s
  else if q = .clipped then setGain s n 0
  else if l * 9 < (v.natAbs : Int) * 10 then setGain s n (d.gain - 1)
  else if q ≠ .valid then onNode s n fun d => { d with low := 0 }
  else if (v.natAbs : Int) * 10 < l * 4 then
    (if 256 ≤ d.low + 1 then setGain s n (Nat.min 3 (d.gain + 1)) else onNode s n fun d => { d with low := d.low + 1 })
  else onNode s n fun d => { d with low := 0 }

/-- What telemetry keeps of a sample (R257, R258); without a SHUNT no current is known (R226). -/
def telemSample (s : State) (n : Nat) (v : Int) (q : Quality) : State :=
  match leafOfCurrent n with
  | some u =>
    onLeaf s u fun l => { l with tel := { l.tel with
      iSamples := if q = .valid ∧ l.env.shunt ≠ 0 then windowAdd s.time.gtc (valueMa l.env.shunt v) l.tel.iSamples else l.tel.iSamples,
      clippedAt := if q = .clipped then some s.time.gtc else l.tel.clippedAt } }
  | none =>
    match leafNums.find? fun u => vNode u == n with
    | some u => onLeaf s u fun l => { l with tel := { l.tel with
        vValidAt := if q = .valid then some s.time.gtc else l.tel.vValidAt,
        clippedAt := if q = .clipped then some s.time.gtc else l.tel.clippedAt } }
    | none => s

/-- I_on: the last current sampled while the slot's generator holds its gates on (R149). -/
def onTimeSample (s : State) (u : Nat) (v : Int) (q : Quality) : State :=
  let p := (vleaf s (slotOf s u)).pwm
  if p.running ∧ p.gateOn ∧ (q = .valid ∨ q = .clipped) then onLeaf s u fun l => { l with pwm := { l.pwm with iOn := valueMa l.env.shunt v } } else s

/-- A sample of a node delivered to the Press and what follows it (R107, R153, R234, R235, R260): the history takes standing conversions only. -/
def deliverSample (s : State) (n : Nat) (v : Int) (q : Quality) (word : Word32) (standing : Bool) : State :=
  let s := onNode s n fun d =>
    { d with value := v, quality := q, word := word, at_ := s.time.gtc, held := if q = .valid ∨ q = .clipped then some (v, s.time.gtc) else d.held }
  let s := telemSample s n v q
  let s := if standing then historySample s n v q else s
  match leafOfCurrent n with
  | some u => autoGain (ltStep (onTimeSample s u v q) u) u n v q
  | none => s

/-- The thermistors' first conversions after the banks have started, before the models are set or advanced (R146, R155, R156); which slice makes them is a
free choice. -/
def readNtc (xs : List (Nat × Int)) (s : State) : State :=
  (xs.filter fun x => x.1 < 8).foldl (fun s x =>
    let d := draw s
    let n := ntcNode x.1
    deliverSample d.2 n x.2 .valid (sampleWord false (nodeBank n) 0 (d.1 % 10) n x.2) true) s

/-! ## Banks and slices (R242 to R246) -/

/-- The slices of a bank that work. -/
def workingSlices (s : State) (b : Nat) : List Nat := sliceNums.filter fun k => !sliceFailed s b k

/-- A CAL_RUN waits for no slice that is gone for good and for none of a failed bank; with none left it completes (R242, R245, R371). -/
def settleCalRun (s : State) : State :=
  if s.meas.calRun.isEmpty then s
  else
    let left := s.meas.calRun.filter fun p => !sliceFailed s p.1 p.2 && !(mbank s p.1).bankFail
    let s := s.onMeas fun m => { m with calRun := left }
    if left.isEmpty then
      match s.link.flights.find? fun f => f.phase == .calibration with
      | some f => doneWith s f stOk (w32 (s.meas.calFailA + 65536 * s.meas.calFailB))
      | none => s
    else s

/-- A bank is declared failed (R242): its conversions are Suspect until the other takes over at the next tick (`takeOverStep`), and plausibility stops. -/
def failBank (b code : Nat) (s : State) : State :=
  if (mbank s b).bankFail then s
  else settleCalRun (raise (onBank (endDual s) b fun k => { k with bankFail := true }) (119 + b) evBankFail (w32 code) 0 0)

/-- The active slice after `k` in ascending order, with wrap-around. -/
def nextSlice (s : State) (b k : Nat) : Nat :=
  ((List.range 11).map fun i => (k + 1 + i) % 11).find? (fun x => !sliceFailed s b x && x != (mbank s b).outSlice) |>.getD k

/-- The active slice before `k`. -/
def prevSlice (s : State) (b k : Nat) : Nat :=
  ((List.range 11).map fun i => (k + 21 - i - 11) % 11).find? (fun x => !sliceFailed s b x && x != k) |>.getD 15

/-- A slice converted a node: its last sample came from it, or a failed check of the rotation names both (R235, R249). -/
def convertedBy (s : State) (b k n : Nat) : Bool :=
  let w := (nodeOf s n).word.toNat
  (w / 1073741824 % 2 == b && w / 16777216 % 16 == k) || (mbank s b).suspects.contains (k, n)

/-- A slice is replaced or removed for good (R245): recorded in NVM-A; the failure counts of the nodes it converted restart (R249). -/
def loseSlice (b k repl : Nat) (s : State) : State :=
  if sliceFailed s b k then s
  else
    let named := (s.meas.nodes.map (·.1)).filter (convertedBy s b k)
    let s := onBank s b fun x => { x with failed := x.failed ||| 2 ^ k, outSlice := 15, suspects := x.suspects.filter (fun p => p.1 != k), repairing := none }
    let s := s.onNvm fun n => if b = 0 then { n with failedA := n.failedA ||| 2 ^ k } else { n with failedB := n.failedB ||| 2 ^ k }
    let s := named.foldl (fun s n => onNode s n fun d => { d with fails := 0 }) s
    let s := settleCalRun (raise s (119 + b) evSliceRepaired (w32 k) (w32 repl) 0)
    if (workingSlices s b).length < 7 then failBank b 1 s else s

/-- A slice in service is declared failed by plausibility (R249): the spare, or the slice then calibrating, takes over its positions after 16 shadow
conversions; without one it is removed at once (R245, R246). -/
def declareSlice (b k : Nat) (s : State) : State :=
  let x := mbank s b
  if x.repairing.isSome then s
  else if x.outSlice = 15 then loseSlice b k 15 s
  else onBank s b fun x => { x with repairing := some (k, 16) }

/-- A conversion of a slice under repair: after the sixteenth its replacement takes over (R245). -/
def repairStep (b k : Nat) (s : State) : State :=
  match (mbank s b).repairing with
  | some (x, n) =>
    if x ≠ k then s
    else if n ≤ 1 then loseSlice b k (mbank s b).outSlice s
    else onBank s b fun y => { y with repairing := some (x, n - 1) }
  | none => s

/-- CAL_BEHIND (R246): once, while a bank without a spare has a slice whose calibration is older than 330 ms. -/
def calBehindStep (b : Nat) (s : State) : State :=
  let age := calAge s b
  if (mbank s b).outSlice ≠ 15 ∨ age ≤ 330 then onBank s b fun k => { k with calBehind := false }
  else if (mbank s b).calBehind then s
  else raise (onBank s b fun k => { k with calBehind := true }) (119 + b) evCalBehind (w32 age) 0 0

/-! ## Plausibility (R247 to R249) -/

/-- 0.5 % of the full scale of the range in use, on the VALUE scale times 1,000; four converter steps of the range are always less (R247). A
die temperature's and an NTC node's full scale is taken as the 32,768 counts of VALUE (DEDUCED, log entry 44). -/
def plausLimit (s : State) (n : Nat) : Int := (if isCurrentNode n then 32768 / (gainOf (nodeOf s n).gain / 10 : Nat) else 32768) * 5

/-- Nodes of a bank in PLAUS_FAIL that carry a current (R242). -/
def plausCurrents (s : State) (b : Nat) : Nat := ((List.range 243).filter fun n => isCurrentNode n && nodeBank n == b && (nodeOf s n).plausFail).length

/-- A slice noted in a failed check of the present rotation, at most 22 ms in RUN and 220 ms in DOZE (R247, R249). -/
def noteSuspect (s : State) (b k n : Nat) : State :=
  let span := if s.power.mode = .doze then 88000000 else 8800000
  onBank s b fun x =>
    let x := if x.checksAt + span ≤ s.time.gtc then { x with suspects := [], checksAt := s.time.gtc } else x
    { x with suspects := if x.suspects.contains (k, n) then x.suspects else x.suspects ++ [(k, n)] }

/-- Nodes that a slice's failed checks of the rotation name. -/
def suspectNodes (s : State) (b k : Nat) : Nat := ((mbank s b).suspects.filter fun p => p.1 == k).length

/-- The slice of a bank that R249 declares failed, none when none is. -/
def convicted (s : State) (b : Nat) : Option Nat :=
  (workingSlices s b).find? fun k => decide (3 ≤ suspectNodes s b k) && (sliceNums.filter (· != k)).all fun x => decide (suspectNodes s b x ≤ 1)

/-- A convicted slice declared failed. -/
def judgeSlices (b : Nat) (s : State) : State := match convicted s b with | some k => declareSlice b k s | none => s

/-- A check of a node failed (R248, R249). -/
def checkFailed (s : State) (n ownerSlice checkerSlice : Nat) : State :=
  let b := nodeBank n
  let s := onBank s (1 - b) fun k => { k with cntFails := satN 4294967295 (k.cntFails + 1) }
  let s := noteSuspect (noteSuspect s b ownerSlice n) (1 - b) checkerSlice n
  let s := onNode s n fun d => { d with fails := d.fails + 1 }
  let s :=
    if 3 ≤ (nodeOf s n).fails ∧ ¬ (nodeOf s n).plausFail then
      let s := raise (onNode s n fun d => { d with plausFail := true }) (119 + b) evPlausFail (w32 n) 0 0
      if 8 < plausCurrents s b then failBank b 2 s else s
    else s
  judgeSlices (1 - b) (judgeSlices b s)

/-- A check passed (R248). -/
def checkPassed (s : State) (n : Nat) : State := onNode s n fun d => { d with fails := 0, plausFail := false, dual := none }

/-- Plausibility runs between the banks (R241, R242). -/
def plausible (s : State) : Bool := [0, 1].all fun b => (mbank s b).refReady && !(mbank s b).bankFail

/-- Nodes that plausibility checks (R228, R247): the standing ones, except node 233. -/
def checkedNode (n : Nat) : Bool := n != 233 && (decide (n < 234) || n == 242)

/-- A conversion of a bank and the same slot of the other bank's slice `ck` make a plausibility pair (R247). -/
def makesPair (s : State) (b n ck : Nat) : Bool :=
  plausible s && checkedNode n && decide (ck < 11) && !sliceFailed s (1 - b) ck && (mbank s (1 - b)).outSlice != ck

/-- Every standing conversion of a node is a pair (R248): its PLAUS_FAIL stands and it carries a current; a bank with more than 8 such nodes has failed. -/
def dualNode (s : State) (n : Nat) : Bool := plausible s && isCurrentNode n && (nodeOf s n).plausFail

/-- The checker's reading as dual conversion gives it to the Press (R248). -/
def giveDual (n : Nat) (v : Int) (s : State) : State := if dualNode s n then onNode s n fun d => { d with dual := some v } else s

/-- A plausibility pair (R247, R248): the owner's conversion `rawA` by slice `k` and the checker's `raw` by slice `ck`, in the range in use. -/
def pairStep (s : State) (n k ck : Nat) (rawA raw : Int) : State :=
  let l := nodeClip s n
  let a := clampI (-l) l rawA
  let b := clampI (-l) l raw
  giveDual n b <|
    if s.time.gtc < (nodeOf s n).settleUntil ∨ l < raw ∨ raw < -l ∨ l < rawA ∨ rawA < -l then s
    else
      let s := onNode s n fun d => { d with pairSum := d.pairSum + (a - b), pairs := d.pairs + 1 }
      let d := nodeOf s n
      if d.pairs < 16 then s
      else
        let bad := decide (plausLimit s n * 16 < (d.pairSum.natAbs : Int) * 1000)
        let s := onNode s n fun d => { d with pairSum := 0, pairs := 0 }
        let s := onBank s (1 - nodeBank n) fun x => { x with cntChecks := satN 4294967295 (x.cntChecks + 1) }
        if bad then checkFailed s n k ck else checkPassed s n

/-! ## User sequences (R239, R251 to R256) -/

/-- A mean rounded to nearest, a tie to even (R239). -/
def meanEven (sum : Int) (n : Nat) : Int :=
  let q := sum / (n : Int)
  let r := sum % (n : Int)
  if 2 * r < (n : Int) then q else if (n : Int) < 2 * r then q + 1 else if q % 2 = 0 then q else q + 1

/-- The quality a conversion of an entry carries: Settling at the first after its node changed (R238). -/
def entryQuality (q : Sequence) (e : Nat) (x : Quality) : Quality := if q.newNodes.contains e ∧ x = .valid then .settling else x

/-- A conversion of a burst's entry (R239, R252): with the last of an entry its output is delivered. -/
def entrySample (s : State) (id e b k n : Nat) (v : Int) (x : Quality) : State :=
  match Tbl.find s.meas.seqs id with
  | none => s
  | some q =>
    let x' := entryQuality q e x
    let s := if x' = x then s else countQuality s b x'
    let acc := q.acc ++ [(v, x'.code)]
    let q := { q with newNodes := q.newNodes.filter (· != e) }
    if acc.length < filterN q.filter then setSeq s id { q with acc := acc }
    else
      let high := acc.foldl (fun m p => Nat.max m p.2) 0
      let top := Nat.max high (ofB (q.newFilter.contains e))
      let s := if top = high then s else countQuality s b .settling
      let w := sampleWord false b top k n (meanEven ((acc.map (·.1)).foldl (· + ·) 0) acc.length)
      let q := { q with acc := [], entry := e + 1, newFilter := q.newFilter.filter (· != e) }
      match streamOf s id with | some (r, _) => emitWords (setSeq s id q) r [w] | none => setSeq s id q

/-- BURST (R252, R253, R255, R256): at its start time, or in the slot after the burst before it. -/
def burstOp (id : Nat) (s : State) : State :=
  match Tbl.find s.meas.seqs id, streamOf s id with
  | some q, some (r, _) =>
    let q := rollBurst s q (s.time.gtc + tickGtc s - 1)
    if q.burst.isSome ∨ q.suspended ∨ (mbank s q.bank).bankFail ∨ ¬ (mbank s q.bank).refOn then s
    else
      (match q.armed with
       | some (trig, start, late) =>
         if start < s.time.gtc + tickGtc s then
           emitWords (setSeq s id { q with armed := none, burst := some (trig, start, late), burstNo := (q.burstNo + 1) % 65536, acc := [], entry := 0 }) r
             (burstRecord s id q.burstNo trig start late)
         else s
       | none => s)
  | _, _ => s

/-! ## Urgent conversions (R250, R254, R358) -/

/-- The result of an urgent conversion given to the snapshots that wait for it (R358). -/
def urgentWord (s : State) (n : Nat) (w : Word32) : State :=
  (s.link.flights.map (·.id)).foldl (fun s id =>
    match flightOf s id with
    | some f =>
      (match f.phase with
       | .urgent got bytes =>
         if (urgentNodes f.sub).contains n ∧ ¬ got.any (fun p => p.1 == n) then
           let got := got ++ [(n, w)]
           finishSnapshot f got bytes (setPhase s id (.urgent got bytes))
         else s
       | _ => s)
    | none => s) s

/-- An urgent request served (R250, R254): whether it displaces a burst's conversion is a free choice while one runs. -/
def urgentServed (s : State) (b n : Nat) : State :=
  let s := onBank s b fun k => { k with urgentPress := k.urgentPress.filter (· != n), urgent := k.urgent.filter (· != n), cntUrgent := satN 4294967295 (k.cntUrgent + 1) }
  if s.meas.seqs.any fun p => p.2.bank == b && burstRuns s p.2 s.time.gtc then
    let d := draw s
    if d.1 % 2 = 0 then onBank d.2 b fun k => { k with cntDisplaced := satN 4294967295 (k.cntDisplaced + 1) } else d.2
  else s

/-! ## Conversions -/

/-- A conversion of node 233 (R242): outside 0.5 % three times in a row fails the bank. -/
def refCheck (s : State) (b : Nat) (v : Int) : State :=
  let c := Config.refValue b
  let bad := decide ((c.natAbs : Int) < ((v - c).natAbs : Int) * 200)
  let s := onBank s b fun k => { k with refBad := if bad then k.refBad + 1 else 0 }
  if 3 ≤ (mbank s b).refBad ∧ (mbank s b).refReady then failBank b 0 (onBank s b fun k => { k with refFail := true }) else s

/-- The place of the next conversion of a burst has come (R252): it starts within the tick. -/
def entryDue (s : State) (q : Sequence) : Bool :=
  match q.burst with
  | some (_, start, _) => decide (start + (q.entry * filterN q.filter + q.acc.length) * q.spacing * slotGtc s < s.time.gtc + tickGtc s)
  | none => false

/-- A readback tap, which is converted on request alone (R228). -/
def isTap (n : Nat) : Bool := decide (234 ≤ n ∧ n ≤ 241)

/-- A bank may make a conversion of the kind and node given: it is on, no other bank has taken it over, and the slice is one of its working ones; standing
conversions are its own nodes', or those it has taken over; a node under dual conversion is converted in pairs; the Press's urgent requests come before the
host's; a burst's conversions come in their order, each in its place; a tap is converted on request, 2 µs after it was connected (R228, R241, R242, R248, R250,
R252, R282). -/
def mayConvert (s : State) (c : ConversionData) : Bool :=
  let k := mbank s c.bank
  k.refOn && !(k.bankFail && (mbank s (1 - c.bank)).takeover) && !sliceFailed s c.bank c.slice && (k.outSlice != c.slice)
    && !(isTap c.node && decide (s.time.gtc < (nodeOf s c.node).settleUntil))
    && (match c.kind with
        | .standing => (nodeBank c.node == c.bank || k.takeover || c.node == 233) && !isTap c.node && !dualNode s c.node
        | .pair _ _ => nodeBank c.node == c.bank && !isTap c.node
        | .urgent => (k.urgentPress.take 16).contains c.node || (k.urgentPress.isEmpty && k.urgent.contains c.node)
        | .sequence id e =>
          (match Tbl.find s.meas.seqs id with
           | some q => q.bank == c.bank && decide (e = q.entry) && decide (e < q.nodes.length) && q.nodes.getD e 256 == c.node && !q.suspended
                        && entryDue s q
           | none => false))

/-- The checker's conversion of a pair as its sample word, with PLAUS, counted by its quality (R235, R247, R259), and the check (R247, R248). -/
def checkerSample (b k n ck : Nat) (rawA raw : Int) (s : State) : State :=
  let x := sampleOf s (1 - b) ck n raw
  let s := countQuality (onNode s n fun d => { d with checkWord := sampleWord true (1 - b) x.2.code ck n x.1 }) (1 - b) x.2
  repairStep (1 - b) ck (pairStep s n k ck rawA raw)

/-- A conversion completes (R235): as a sample word; both samples of a plausibility pair carry PLAUS, and both are counted (R247, R259). Where no pair can be
made, it is a standing conversion alone. -/
def conversionOp (c : ConversionData) (s : State) : State :=
  if !mayConvert s c then s
  else
    let (v, q) := sampleOf s c.bank c.slice c.node c.raw
    let word (plaus : Bool) : Word32 := sampleWord plaus c.bank q.code c.slice c.node v
    let s := countQuality s c.bank q
    repairStep c.bank c.slice <| match c.kind with
    | .sequence id e => entrySample s id e c.bank c.slice c.node v q
    | .urgent =>
      let s := urgentServed (deliverSample s c.node v q (word false) false) c.bank c.node
      urgentWord s c.node (word false)
    | .standing => let s := deliverSample s c.node v q (word false) true; if c.node = 233 then refCheck s c.bank v else s
    | .pair ck raw =>
      let pair := makesPair s c.bank c.node ck
      let s := if pair then checkerSample c.bank c.slice c.node ck c.raw raw s else s
      deliverSample s c.node v q (word pair) true

/-- The measurement banks run (R227, R439). -/
abbrev banksRun (s : State) : Bool := clocked s

/-- A row about a measurement bank or what it feeds; one whose operand names nothing the part has changes nothing (log entry 74). -/
def measRow (known : Bool) (op : State → State) (s : State) : Host.Outcome State Fault Refusal :=
  if known ∧ banksRun s then .next (afterRow (op s)) else .next s

/-- CONVERSION (R235). -/
def execConversion (conv : ConversionData) (s : State) : Host.Outcome State Fault Refusal :=
  measRow (decide (conv.bank < 2 ∧ conv.slice < 11 ∧ conv.node < 243)) (conversionOp conv) s

/-- REF_READY (R240, R241, R242). -/
def refReadyOp (b : Nat) (inTolerance : Bool) (s : State) : State :=
  let k := mbank s b
  if !k.refOn ∨ k.refReady ∨ k.bankFail ∨ s.time.gtc < k.refAt + 100000 then s
  else if inTolerance ∧ s.time.gtc ≤ k.refAt + 400000 then onBank s b fun k => { k with refReady := true, rewake := false, refBad := 0 }
  else if k.refAt + 400000 ≤ s.time.gtc then failBank b 0 (onBank s b fun k => { k with refFail := true })
  else s

/-- REF_READY. -/
def execRefReady (bank : Nat) (inTolerance : Bool) (s : State) : Host.Outcome State Fault Refusal :=
  measRow (decide (bank < 2)) (refReadyOp bank inTolerance) s

/-- The next rotation is due (R243, R371): every 10 ms, or, for a CAL_RUN, as soon as the slice out of service has calibrated. -/
def rotationDue (s : State) (b : Nat) : Bool :=
  let k := mbank s b
  decide (k.rotatedAt + 4000000 ≤ s.time.gtc) || (s.meas.calRun.any (fun p => p.1 == b) && !s.meas.calRun.contains (b, k.outSlice))

/-- SPARE_ROTATION (R243, R244): the pairs are the slice's and its shadow's conversions of one node. -/
def spareRotationOp (b n : Nat) (pairs : List (Int × Int)) (s : State) : State :=
  let k := mbank s b
  if k.outSlice = 15 ∨ ¬ k.refOn ∨ k.bankFail ∨ k.repairing.isSome ∨ ¬ rotationDue s b then calBehindStep b s
  else
    let out := k.outSlice
    let nxt := nextSlice s b out
    let diff := (pairs.map fun p => p.1 - p.2).foldl (· + ·) 0
    let bad := decide (plausLimit s n * 16 < (diff.natAbs : Int) * 1000)
    let s := onBank s b fun k => { k with outSlice := nxt, rotatedAt := s.time.gtc, cntSwaps := satN 4294967295 (k.cntSwaps + 1),
                                          cntMismatch := if bad then satN 4294967295 (k.cntMismatch + 1) else k.cntMismatch }
    if bad then raise s (119 + b) evSliceMismatch (w32 nxt) (w32 out) 0 else s

/-- SPARE_ROTATION. -/
def execSpareRotation (bank : Nat) (node : Nat) (pairs : List (Int × Int)) (s : State) : Host.Outcome State Fault Refusal :=
  measRow (decide (bank < 2 ∧ node < 243 ∧ pairs.length = 16)) (spareRotationOp bank node pairs) s

/-- The slice whose calibration ends: the one out of service, or, without a spare, the one calibrated longest ago (R243, R246). -/
def calibrating (s : State) (b : Nat) : Nat :=
  let k := mbank s b
  if k.outSlice < 11 then k.outSlice
  else
    match workingSlices s b with
    | [] => 15
    | x :: xs => xs.foldl (fun m y => if Tbl.get 0 k.calAt y < Tbl.get 0 k.calAt m then y else m) x

/-- A CAL_RUN after the calibration of a slice (R371). -/
def calRunStep (b k : Nat) (pass : Bool) (s : State) : State :=
  if s.meas.calRun.isEmpty then s
  else
    let bitK := if pass then 0 else 2 ^ k
    settleCalRun (s.onMeas fun m => { m with calRun := m.calRun.filter (· != (b, k)), calFailA := if b = 0 then m.calFailA ||| bitK else m.calFailA,
                                             calFailB := if b = 1 then m.calFailB ||| bitK else m.calFailB })

/-- SLICE_CALIBRATION (R243, R245, R246, R371): the calibration of a slice that is to replace another is abandoned, and its coefficients stand. -/
def sliceCalibrationOp (b : Nat) (pass : Bool) (s : State) : State :=
  let k := calibrating s b
  if 11 ≤ k ∨ (mbank s b).bankFail ∨ (mbank s b).repairing.isSome then s
  else
    let spare := if (mbank s b).outSlice = k then prevSlice s b k else 15
    let s := calRunStep b k pass (if pass then onBank s b fun x => { x with calAt := Tbl.put x.calAt k s.time.gtc } else s)
    calBehindStep b (if pass then s else loseSlice b k spare s)

/-- SLICE_CALIBRATION. -/
def execSliceCalibration (bank : Nat) (pass : Bool) (s : State) : Host.Outcome State Fault Refusal :=
  measRow (decide (bank < 2)) (sliceCalibrationOp bank pass) s

/-- BURST. -/
def execBurst (seqId : Nat) (s : State) : Host.Outcome State Fault Refusal := measRow (decide (seqId < 8)) (burstOp seqId) s

/-- CAPTURE_DONE (R263). -/
def execCaptureDone (slot : Nat) (s : State) : Host.Outcome State Fault Refusal := measRow (decide (slot < 4)) (captureDoneOp slot) s

/-- CMP_DAC_CHECK (R282, R283): tap 7 on the next cell; a check during which the code changed is discarded. -/
def cmpDacCheckOp (v : Int) (changed : Bool) (s : State) : State :=
  if s.fw.rind ≠ .running then s
  else
    let c := s.cmp.dacNext
    let s := setTap (s.onCmp fun m => { m with dacNext := (c + 1) % 344 }) 7 c
    if changed then s else dacCheck s c v

/-- CMP_DAC_CHECK. -/
def execCmpDacCheck (readback : Int) (codeChanged : Bool) (s : State) : Host.Outcome State Fault Refusal :=
  measRow true (cmpDacCheckOp readback codeChanged) s

end Sys2Proof.Machine
end

