-- ==== Sys2Proof/Machine/VatRows.lean ====
section
/-!
DEFINITION. Machine/VatRows.lean: the Vat's patrol and its errors, the retention record, the mirror, and the rows of the Cave and of the non-volatile memories
(R155, R288 to R292, R400, R402, R408, R494, R516).
-/

namespace Sys2Proof.Machine

/-- Rind runs in RUN or DOZE. -/
def rindRuns (s : State) : Bool := s.fw.rind == .running && clocked s

/-- A row of something that Rind does. -/
def rindRow (op : State → State) (s : State) : Host.Outcome State Fault Refusal := if rindRuns s then .next (afterRow (op s)) else .next s

/-- A row of the link, the router or the DMA engines, which run in RUN and DOZE. One whose operand names nothing the part has changes nothing (log entry
74). -/
def liveRow (known : Bool) (op : State → State) (s : State) : Host.Outcome State Fault Refusal :=
  if known ∧ clocked s then .next (afterRow (op s)) else .next s

/-! ## Errors in tiles (R288, R289) -/

/-- A working tile (R288): it never closes. -/
def workingTile (s : State) (t : Nat) : Bool :=
  let g := tagOf s t
  g.state == .filling && (g.holder == 4 || g.holder == 6 || g.holder == 1)

/-- A double-bit error in a tile (R288, R289, R291). In a working tile, which is tested, it raises VAT_UE, and Paste restarts when the tile was one of its own; in any
other tile that is being filled it sets POISON, whether patrol finds it or a read-modify-write; in one that is read through the checker it fails the next read. -/
def doubleBit (t : Nat) (pass : Bool) (s : State) : State :=
  let g := tagOf s t
  match g.state with
  | .filling =>
    if workingTile s t then
      let s := claimTile (raise (countFail s t) 115 evVatUe (w32 t) (w32 g.holder) 0) t pass
      if g.holder = 1 then s else pasteFails .tile s
    else setTag s t { g with poison := true }
  | .closed | .reading => s.onVat fun v => { v with bad := if v.bad.contains t then v.bad else v.bad ++ [t] }
  | _ => s

/-- PATROL: one tile read, then the next; a CLOSED tile whose CRC does not match is bad as one with a double-bit error (R288, R291). -/
def patrolOp (x : PatrolFinding) (s : State) : State :=
  let t := s.vat.patrolAt
  let s := s.onVat fun v => { v with patrolAt := (v.patrolAt + 1) % 8192, ce := satN 4294967295 (v.ce + x.singles) }
  if (tagOf s t).state = .retired then s
  else if x.double ∨ (x.crcBad ∧ (tagOf s t).state = .closed) then doubleBit t x.testPass s
  else s

/-- PATROL. -/
def execPatrol (found : PatrolFinding) (s : State) : Host.Outcome State Fault Refusal := rindRow (patrolOp found) s

/-- VAT_UE: a double-bit error met in a tile (R288); the result of Rind's test is a free choice (log entry 5). -/
def execVatUe (tile : Nat) (s : State) : Host.Outcome State Fault Refusal :=
  liveRow (decide (tile < 8192)) (fun s => let d := draw s; doubleBit tile (d.1 % 2 == 0) d.2) s

/-! ## The retention record (R155, R292) -/

/-- The tiles of a half of the record that are in service. -/
def retentionTiles (s : State) (half : Nat) : List Nat := ((List.range 32).map (· + 32 * half)).filter fun t => (tagOf s t).state != .retired

/-- A half holds an intact record: it has been written, and its tiles pass their checks (R155, R292). -/
def halfIntact (s : State) (half : Nat) : Bool :=
  (Tbl.find s.vat.retained half).isSome && (retentionTiles s half).all fun t => !s.vat.bad.contains t

/-- The half that holds the latest intact record. -/
def intactHalf (s : State) : Option Nat := [s.vat.retentionHalf, 1 - s.vat.retentionHalf].find? (halfIntact s)

/-- The latest intact record (R155, R292). -/
def intactRecord (s : State) : Option RetentionRec := (intactHalf s).bind (Tbl.find s.vat.retained)

/-- The half that the next record is written to: the one that does not hold the latest intact record (R292). -/
def nextHalf (s : State) : Nat := 1 - (intactHalf s).getD s.vat.retentionHalf

/-- The model state written to a half, tile by tile; their contents are not laid out, so their checksums are free. -/
def writeRetention (park : Bool) (s : State) : State :=
  let half := nextHalf s
  let ts := retentionTiles s half
  let s := ts.foldl (fun s t => let d := draw s; setTag d.2 t (tileClosed (tileFilling (tagOf d.2 t) 1) (w32 d.1))) s
  s.onVat fun v => { v with retained := Tbl.put v.retained half { at_ := s.time.gtc, leaves := s.press.leaves, park := park }, retentionHalf := half,
                            bad := v.bad.filter (fun t => !ts.contains t), toTest := v.toTest.filter fun t => !ts.contains t }

/-- RETENTION_RECORD: every 1 ms (R155). -/
def retentionOp (s : State) : State :=
  match Tbl.find s.vat.retained s.vat.retentionHalf with
  | some r => if s.time.gtc < r.at_ + 400000 ∧ r.at_ ≤ s.time.gtc then s else writeRetention false s
  | none => writeRetention false s

/-- RETENTION_RECORD. -/
def execRetentionRecord (s : State) : Host.Outcome State Fault Refusal := if pressRuns s then rindRow retentionOp s else .next s

/-- A half read back through the checker: where a tile fails, VAT_CRC_FAIL is raised of each, and the half holds no record any more (R155, R289). -/
def readHalf (half : Nat) (s : State) : State :=
  if (Tbl.find s.vat.retained half).isNone ∨ halfIntact s half then s
  else
    let ts := (retentionTiles s half).filter fun t => s.vat.bad.contains t
    (ts.foldl (fun s t => failRef s 1 (t, (tagOf s t).gen)) s).onVat fun v => { v with retained := Tbl.del v.retained half }

/-- Rind reads the record back to restore the models: the half written last, and the other where that one fails (R289, R292). -/
def readRetention (s : State) : State :=
  let h := s.vat.retentionHalf
  let s := readHalf h s
  if halfIntact s h then s else readHalf (1 - h) s

/-- The records no longer count as written at PARK entry (R156). -/
def leavePark (s : State) : State := s.onVat fun v => { v with retained := v.retained.map fun p => (p.1, { p.2 with park := false }) }

/-- The models of a leaf as a record holds them (R155). -/
def takeRecord (r : RetentionRec) (s : State) (u : Nat) : State :=
  let g := (Tbl.get {} r.leaves u).led
  onLeaf s u fun l => { l with led := { l.led with tc := g.tc, ti := g.ti, th1 := g.th1, th2 := g.th2, th3 := g.th3, lt := g.lt,
                                                   ltRunning := g.ltRunning, ltQuiet := g.ltQuiet } }

/-- MIRROR_REFRESH (R494). -/
def execMirrorRefresh (s : State) : Host.Outcome State Fault Refusal := if pressRuns s then .next (afterRow (mirrorRefreshOp s)) else .next s

/-! ## The Cave and the memories -/

/-- CAVE_REPEAT_WINDOW (R402, R403). -/
def execCaveRepeatWindow (s : State) : Host.Outcome State Fault Refusal := rindRow caveRepeatWindowOp s

/-- LOG_MEM_FAULT (R408): pages 0 to 63 of the Cave's ring in NVM-A. -/
def execLogMemFault (fault : NvmFault) (s : State) : Host.Outcome State Fault Refusal :=
  match fault with
  | .page p => rindRow (if p < 64 then pageFault p else id) s
  | .failsafe => rindRow failsafeFault s

/-- OPERATING_COUNTER_WRITE (R400). -/
def execOperatingCounterWrite (s : State) : Host.Outcome State Fault Refusal := rindRow operatingCounterOp s

/-- NVM_REFRESH (R516). -/
def execNvmRefresh (s : State) : Host.Outcome State Fault Refusal := rindRow nvmRefreshOp s

end Sys2Proof.Machine
end

