-- ==== Sys2Proof/Machine/LinkRows.lean ====
section
/-!
DEFINITION. Machine/LinkRows.lean: the rows of the rings and of host DMA: doorbell polls, the ring set table, the fetching of descriptors, host silence,
faults, translations, interrupts, and the host interface reset (R294, R297 to R303, R309, R313 to R334, R378, R381, R447).
-/

namespace Sys2Proof.Machine

/-! ## Host silence (R332 to R334) -/

/-- HOST_LOST begins, for the reason of R410's P0: the event, and the profile's fallback (R333). -/
def loseHost (why : Nat) (s : State) : State :=
  if s.link.hostLost then s
  else
    let s := s.onLink fun l => { l with hostLost := true, hostLostAt := s.time.gtc, lostGen := l.dbGen, regCycles := 0, regRestartAt := none }
    applyFallback (raise s 113 evHostLost (w32 why) (w32 (fallbackOf s)) 0)

/-- Paste has started (R332). -/
def pasteStarted (s : State) : Bool := match s.fw.paste with | .serving | .handover => true | .stopped => s.fw.restartDue.isSome | .down => false

/-- HOST_LOST (R332): DB_GEN, once read, unchanged for longer than HOST_SILENCE_TIMEOUT of polling, or no ENABLE within the 30 s. -/
def hostLostOp (s : State) : State :=
  if polling s ∧ s.link.dbGen.isSome ∧ s.link.silenceMs * 400000 < s.link.silent then loseHost 0 s
  else match s.link.allowAt with
    | some t =>
      if ¬ s.link.setup.enable ∧ pasteStarted s ∧ t + 12000000000 ≤ s.time.gtc then loseHost 2 (s.onLink fun l => { l with allowAt := none }) else s
    | none => s

/-- A read of the doorbell block (48) or of the ring set table (49) fails (R300, R332): DMA_FAULT and HOST_LOST. -/
def readFails (target addr : Nat) (s : State) : State :=
  loseHost 1 (raise (if target = 48 then notePoll true s else s) 114 evDmaFault (w32 addr) (w32 (addr / 4294967296)) (w32 target))

/-- A 64-bit address from its two registers. -/
def addr64 (lo hi : Word32) : Nat := lo.toNat + hi.toNat * 4294967296

/-! ## Doorbell block (R317 to R319, R334) -/

/-- Ring set indices that name rings. -/
def ringIndices : List Nat := List.range 44

/-- The entries the host has published on an ST ring since the last parse, and the page addresses the device reads from them (R328). -/
def takePages (r w : Nat) (pages : List (Nat × Nat)) (s : State) : State :=
  let i := stIndex r
  let x := ringOf s i
  let n := (w + x.cfg.entries - x.host) % x.cfg.entries
  let mine := (pages.filter fun p => p.1 == r).map (·.2)
  onRing s i fun x => { x with host := w, pages := x.pages ++ (List.range n).map fun k => mine.getD k 0 }

/-- One word of the block parsed (R317, R319). -/
def parseWord (block : List Byte) (pages : List (Nat × Nat)) (s : State) (i : Nat) : State :=
  if !ringServed s i then s
  else
    let w := leAt block (4 * i) 4
    if (ringOf s i).cfg.entries ≤ w then haltRing (raise s 113 evDbInvalid (w32 i) (w32 w) 0) i
    else if 32 ≤ i ∧ i < 40 then deliverStream streamFuel (i - 32) (takePages (i - 32) w pages s)
    else onRing s i fun x => { x with host := w }

/-- The block parsed: RST_GEN, then every ring's word (R317). -/
def parseBlock (block : List Byte) (pages : List (Nat × Nat)) (s : State) : State :=
  let rst := w32 (leAt block 176 4)
  let s := s.onLink fun l => { l with tableDue := l.tableDue || (l.rstGen.isSome && l.rstGen != some rst), rstGen := some rst }
  ringIndices.foldl (parseWord block pages) s

/-- HOST_LOST ends (R334): the ring set table is read again, and the rings resume where they stopped. -/
def hostBack (s : State) : State :=
  raise (s.onLink fun l => { l with hostLost := false, tableDue := true, regCycles := 0, regRestartAt := none }) 113 evHostBack 0 0 0

/-- A doorbell block read (R318, R334). -/
def readBlock (block : List Byte) (pages : List (Nat × Nat)) (s : State) : State :=
  let gen := w32 (leAt block 252 4)
  let changed := s.link.dbGen != some gen
  let s := if s.link.hostLost ∧ s.link.lostGen ≠ some gen then hostBack s else s
  let due := changed || s.link.parseAgain
  let s := s.onLink fun l => { l with dbGen := some gen, parseAgain := changed, silent := if changed then 0 else l.silent }
  if due then parseBlock block pages s else s

/-- DOORBELL_POLL (R318): every poll interval, and not before; a failed read is that of R300. -/
def doorbellPollOp (block : Option (List Byte)) (pages : List (Nat × Nat)) (s : State) : State :=
  let a := addr64 s.link.setup.dbLo s.link.setup.dbHi
  if !polling s || decide (s.time.gtc < s.link.pollDue) then s
  else match block with
    | none => readFails 48 a s
    | some b => readBlock b pages (useAddr a (notePoll false s))

/-! ## Ring set table (R313 to R316) -/

/-- The record of a ring, from its 64 bytes (R314). -/
def parseRing (b : List Byte) : RingRec :=
  { kind := byteAt b 0, flags := byteAt b 1, vector := byteAt b 2, cq := byteAt b 3, entries := leAt b 4 4, base := leAt b 8 8,
    coalCount := leAt b 16 2, coalTime := leAt b 18 2 }

/-- KIND that an index takes, and the greatest ENTRIES (R313). -/
def ringKind (i : Nat) : Nat × Nat :=
  if i < 16 then (1, 2048) else if i < 32 then (2, 65536) else if i < 40 then (3, 4096) else if i < 44 then (4, 65536) else (0, 0)

/-- A power of two from 16 to 65,536. -/
def isPow2 (n : Nat) : Bool := (List.range 17).any fun k => decide (4 ≤ k) && n == 2 ^ k

/-- A record is valid of itself (R315). -/
def recOk (i : Nat) (b : List Byte) : Bool :=
  let r := parseRing b
  r.kind == (ringKind i).1 && decide (r.flags < 16) && decide (r.entries ≤ (ringKind i).2) && isPow2 r.entries && decide (r.base % 4096 = 0)
    && (r.kind == 3 || bit r.flags 1) && (r.kind == 1 || decide (r.vector ≤ 63)) && (slice b 20 44).all (· == 0)

/-- The bytes of record `i` of the table. -/
def tableRec (table : List Byte) (i : Nat) : List Byte := slice table (64 * i) 64

/-- A record of the table is used: its KIND is not 0 (R314). -/
def recUsed (table : List Byte) (i : Nat) : Bool := byteAt table (64 * i) != 0

/-- A record of the table is valid: an SQ's also needs the record of its CQ, valid and enabled (R315). -/
def recValid (table : List Byte) (i : Nat) : Bool :=
  let b := tableRec table i
  let c := 16 + (parseRing b).cq
  recOk i b && (decide (16 ≤ i)
    || (decide ((parseRing b).cq < 16) && recOk c (tableRec table c) && bit (parseRing (tableRec table c)).flags 0))

/-- RING_CONFIG_ERR (R315, R316). -/
def ringConfigErr (s : State) (i : Nat) : State := raise s 113 evRingConfigErr (w32 i) 0 0

/-- An enabled ring whose record has ENABLE clear (R316): an ST ring's stream stops as by STREAM_STOP. -/
def disableRing (i : Nat) (s : State) : State :=
  let s := if 32 ≤ i ∧ i < 40 then
      let s := match streamAt s (i - 32) with | some x => if x.stopped.isNone then endStream s (i - 32) else s | none => s
      s.onMeas fun m => { m with streams := Tbl.del m.streams (i - 32) }
    else s
  onRing s i fun x => { x with up := false }

/-- A ring taken as its record stands (R316, R329). -/
def enableRing (i : Nat) (r : RingRec) (s : State) : State := onRing s i fun x => { cfg := r, up := true, everUp := true, err := x.err }

/-- A record acted on (R315, R316). -/
def actOnRec (table : List Byte) (s : State) (i : Nat) : State :=
  let r := parseRing (tableRec table i)
  let bad := recUsed table i && !recValid table i
  let s := if bad then ringConfigErr s i else s
  if 44 ≤ i then s
  else
    let x := ringOf s i
    let s := if x.err = bad then s else onRing s i fun x => { x with err := bad }
    let en := recUsed table i && !bad && bit r.flags 0
    if x.up && !x.halted then
      if !en then disableRing i s
      else if { r with flags := r.flags / 2 } ≠ { x.cfg with flags := x.cfg.flags / 2 } then ringConfigErr s i else s
    else if en then enableRing i r s
    else if x.up then disableRing i s else s

/-- RING_SET_TABLE_READ (R315, R316). -/
def ringSetTableOp (table : Option (List Byte)) (s : State) : State :=
  if !polling s || !s.link.tableDue then s
  else match table with
    | none => readFails 49 (addr64 s.link.setup.rstLo s.link.setup.rstHi) s
    | some t => (List.range 48).foldl (actOnRec t) ((useAddr (addr64 s.link.setup.rstLo s.link.setup.rstHi) s).onLink fun l => { l with tableDue := false, ringsUp := true })

/-! ## Fetching (R285, R289, R294, R320 to R322, R338) -/

/-- Commands in flight that complete to a CQ. -/
def inFlightFor (s : State) (c : Nat) : Nat := (s.link.flights.filter fun f => f.origin == .host && cqOf s f.sub.sq == c).length

/-- Descriptors may be fetched from a submission ring: it is served and not empty, the host is there, Paste serves, its holder can take a tile, and that of its CQ
can take all that is in flight and one tile of descriptors more (R293, R294, R331, R333, R428). -/
def mayFetch (s : State) (q : Nat) : Bool :=
  ringServed s q && s.link.up && !s.link.hostLost && s.fw.paste == .serving && tileAvailable s (ringHolder q)
    && cqRoom s (cqOf s q) (inFlightFor s (cqOf s q) + 8)

/-- A fetched descriptor parsed (R338). -/
def parseFetched (q : Nat) (s : State) (d : FetchedDescriptor) : State :=
  let sub := { parseSub q d.raw d.data with fault := d.fault }
  let s := advanceRing s q
  match opOf (byteAt d.raw 0) with
  | some op => parseCommand s op sub
  | none => parseUndefined s sub

/-- Up to eight descriptors through a submission tile; one that fails its check is fetched again later (R289, R321). -/
def fetchTile (q : Nat) (ds : List FetchedDescriptor) (s : State) : State :=
  let h := ringHolder q
  let s := useAddr (entryAddr s q (ringOf s q).index) s
  let s := closeTile (allocTile s h) h (some (ds.flatMap fun d => slice d.raw 0 64))
  if ds.any (·.crcBad) || headBad s h then failHead s h else ds.foldl (parseFetched q) (releaseTile s h)

/-- Descriptors fetched tile by tile while nothing stops it; after a tile that fails its check they are fetched again another time (R289, R321). -/
def fetchAll : Nat → Nat → List FetchedDescriptor → State → State
  | 0, _, _, s => s
  | n + 1, q, ds, s =>
    if ds.isEmpty ∨ ¬ mayFetch s q then s
    else if (ds.take 8).any (·.crcBad) then fetchTile q (ds.take 8) s
    else fetchAll n q (ds.drop 8) (fetchTile q (ds.take 8) s)

/-- Descriptors between the device's head and the host's tail (R317, R319). -/
def waitingDescriptors (s : State) (q : Nat) : Nat :=
  let r := ringOf s q
  (r.host + r.cfg.entries - r.index) % r.cfg.entries

/-- A submission ring's record has SAFETY set (R314). -/
def safetyRing (s : State) (q : Nat) : Bool := bit (ringOf s q).cfg.flags 2

/-- Something can be fetched from a submission ring: it is not empty, and may be fetched from. -/
def fetchable (s : State) (q : Nat) : Bool := mayFetch s q && decide (0 < waitingDescriptors s q)

/-- The submission rings of a group from which something can be fetched (R321). -/
def fetchGroup (s : State) (safety : Bool) : List Nat := (List.range 16).filter fun q => safetyRing s q == safety && fetchable s q

/-- The ring whose turn it is in a group: the lowest index from where the turn stands, else the lowest (R321). -/
def turnIn (g : List Nat) (turn : Nat) : Option Nat := match g.find? (turn ≤ ·) with | some q => some q | none => g.head?

/-- The ring from which the next descriptor is fetched: the rings with SAFETY set come first (R321). -/
def fetchTurn (s : State) : Option Nat :=
  let g := fetchGroup s true
  if g.isEmpty then turnIn (fetchGroup s false) s.link.turnOther else turnIn g s.link.turnSafety

/-- How many descriptors are fetched in a turn: one, where another ring of the group has some too (R321). -/
def turnCount (s : State) (q n : Nat) : Nat := if (fetchGroup s (safetyRing s q)).length ≤ 1 then n else Nat.min n 1

/-- The turn passes on (R321). -/
def passTurn (q : Nat) (s : State) : State :=
  s.onLink fun l => if safetyRing s q then { l with turnSafety := (q + 1) % 16 } else { l with turnOther := (q + 1) % 16 }

/-- DESCRIPTOR_FETCH (R321): of the ring whose turn it is; out of its turn nothing is fetched. -/
def descriptorFetchOp (q : Nat) (ds : List FetchedDescriptor) (s : State) : State :=
  if fetchTurn s ≠ some q then s
  else
    let ds := ds.take (turnCount s q (waitingDescriptors s q))
    if ds.isEmpty then s else fetchAll ds.length q ds (passTurn q s)

/-! ## Faults on pinned structures (R300) -/

/-- A command whose buffer a transfer still reads or writes. -/
def inTransfer (f : Flight) : Bool :=
  match f.phase with
  | .waiting | .scheduled | .deferred | .nvmWait | .dialogue => (bufferNeed f.op f.sub).isSome
  | .transfer _ | .urgent _ _ => true
  | _ => false

/-- A fault on the buffer of a command (R298 to R300): it completes with XLATE and the bytes transferred. -/
def faultBuffer (f : Flight) (s : State) : State :=
  doneWith s f stXlate (match f.phase with | .transfer n => w32 n | _ => 0)

/-- DMA_FAULT (R300): ring set index, 48 the doorbell block, 49 the ring set table, 50 the buffer of a command. -/
def dmaFaultOp (target addr : Nat) (c : CommandRef) (s : State) : State :=
  let fault (s : State) : State := raise s 114 evDmaFault (w32 addr) (w32 (addr / 4294967296)) (w32 target)
  if !s.link.up then s
  else if target = 48 ∨ target = 49 then (if polling s then readFails target addr s else s)
  else if target = 50 then
    match flightByRef s c with
    | some f => if inTransfer f then faultBuffer f (fault s) else s
    | none => s
  else if !ringServed s target then s
  else if 32 ≤ target ∧ target < 40 then
    (if (bit (ringOf s target).cfg.flags 1 ∨ ¬ s.link.ats) ∧ (streamAt s (target - 32)).isSome then faultStream (fault s) (target - 32) stXlate else s)
  else haltRing (fault s) target

/-! ## Event tiles and buckets (R378, R381) -/

/-- EVENT_TOKEN_REFILL (R381, R491). -/
def eventTokenRefillOp (src : Nat) (s : State) : State := refill s src s.time.gtc

/-- EVENT_TILE_CLOSE (R378): 16 entries, or 2 µs after the first in RUN, 16 µs in DOZE. -/
def eventTileCloseOp (r : Nat) (s : State) : State :=
  let es := Tbl.get [] s.link.evOpen r
  let limit := if s.power.mode = .doze then 6400 else 800
  if es.isEmpty then s else if 16 ≤ es.length ∨ Tbl.get 0 s.link.evOpenAt r + limit ≤ s.time.gtc then closeEvTile s r else s

/-! ## Host interface reset (R309, R323, R442) -/

/-- What becomes of a command of an SQ: one whose action the Press has taken in stays in force and completes to nobody, any other goes. -/
def keepsAcross (s : State) (f : Flight) : Bool :=
  match f.origin with
  | .host => takenIn f || (f.phase == .handover && s.fw.paste != .handover)
  | _ => true

/-- The commands of the submission rings are forgotten (R309). -/
def forgetCommands (s : State) : State :=
  let gone := s.link.flights.filter fun f => !keepsAcross s f
  let had (ph : Flight → Bool) : Bool := gone.any ph
  let s := if had (fun f => f.phase == .handover) then s.onFw fun w => { w with paste := .serving, handover := none } else s
  let s := if had (fun f => f.phase == .calibration) then s.onMeas fun m => { m with calRun := [] } else s
  let s := if had (fun f => f.phase == .power) then s.onPower fun p => { p with next := none } else s
  let s := if had (fun f => f.phase == .nvmWait && f.op == .logClear) then s.onCave fun c => { c with clearing := false } else s
  let s := (gone.filter fun f => match f.phase with | .transfer n => decide (0 < n) | _ => false).foldl spoilStage s
  let s := gone.foldl (fun s f => dropFlight s f.id) s
  s.onLink fun l => { l with flights := l.flights.map fun f => if f.origin = .host then { f with origin := .orphan } else f }

/-- The streams stop (R309); one that the device has stopped before holds its ring on (R360). -/
def forgetStreams (s : State) : State :=
  let s := s.meas.streams.foldl (fun s p => quietSeq (dropStreamTiles s p.1) p.2.seqId) s
  s.onMeas fun m => { m with streams := m.streams.filter fun p => p.2.stopped.isSome }

/-- The host interface reset of PERST_L and FLR (R309, R442, R484). -/
def hostReset (s : State) : State :=
  let s := forgetStreams (forgetCommands s)
  let s := (List.range 44).foldl (fun s i => releaseAll s (ringHolder i)) s
  let s := s.onLink fun l =>
    { l with ats := false, pri := false, ptm := false, cfg := {}, d3hot := false, setup := {}, pollFails := false, silent := 0, msix := [], pba := [], rings := [], ringsUp := false, dbGen := none,
             parseAgain := false, rstGen := none, tableDue := false, allowAt := some s.time.gtc, hostLost := false, lostGen := none, regCycles := 0,
             regRestartAt := none, tagsBusy := [], tagGens := [], cqHeld := [], cqSeq := [], evHeld := [], evOpen := [],
             evOpenAt := [], evLost := [], xfers := [], priStopped := false, prgs := [], atc := [], doe := .none, turnSafety := 0, turnOther := 0 }
  (s.onPower fun p => { p with parkPending := false }).onTime fun t => { t with dialogue := none }

/-- PERST_L (R307, R309, R447): its deassertion releases WAKE_L, and restarts the allowance of R332. -/
def perstOp (asserted : Bool) (s : State) : State :=
  if asserted then
    (hostReset s).onLink fun l => { l with perst := true, up := false, speed := 0, width := 0, fullSpeed := 0, fullWidth := 0 }
  else (s.onLink fun l => { l with perst := false, allowAt := some s.time.gtc }).onPower fun p => { p with wakeL := false }

/-- LINK_UP (R306, R307, R447): the link reaches L0 with what it trained to, and the host sets ATS, PRI and PTM in the configuration space. -/
def linkUpOp (x : LinkInputs) (s : State) : State :=
  if s.link.perst then s
  else
    let s := s.onLink fun l => { l with up := true, fullSpeed := x.speed, fullWidth := x.width, ats := x.ats, pri := x.pri, ptm := x.ptm, cfg := x.cfg }
    relink (s.onPower fun p => { p with wakeL := false })

/-! ## The rows -/

/-- DOORBELL_POLL. -/
def execDoorbellPoll (block : Option (List Byte)) (pages : List (Nat × Nat)) (s : State) : Host.Outcome State Fault Refusal :=
  liveRow true (doorbellPollOp block pages) s

/-- RING_SET_TABLE_READ. -/
def execRingSetTableRead (table : Option (List Byte)) (s : State) : Host.Outcome State Fault Refusal := liveRow true (ringSetTableOp table) s

/-- DESCRIPTOR_FETCH. -/
def execDescriptorFetch (sq : Nat) (fetched : List FetchedDescriptor) (s : State) : Host.Outcome State Fault Refusal :=
  liveRow (decide (sq < 16)) (descriptorFetchOp sq fetched) s

/-- HOST_LOST. -/
def execHostLost (s : State) : Host.Outcome State Fault Refusal := liveRow true hostLostOp s

/-- DMA_FAULT. -/
def execDmaFault (target addr : Nat) (cmd : CommandRef) (s : State) : Host.Outcome State Fault Refusal :=
  liveRow (decide (target < 44 ∨ (48 ≤ target ∧ target ≤ 50))) (dmaFaultOp target addr cmd) s

/-- TRANSLATION_RESPONSE. -/
def execTranslationResponse (xfer : Nat) (size : Option Nat) (s : State) : Host.Outcome State Fault Refusal :=
  liveRow true (translationResponseOp xfer size) s

/-- PAGE_REQUEST_RESPONSE. -/
def execPageRequestResponse (prg code : Nat) (s : State) : Host.Outcome State Fault Refusal :=
  liveRow (decide (prg < 512)) (pageRequestResponseOp prg code) s

/-- PAGE_REQUEST_TIMEOUT. -/
def execPageRequestTimeout (prg : Nat) (s : State) : Host.Outcome State Fault Refusal :=
  liveRow (decide (prg < 512)) (pageRequestTimeoutOp prg) s

/-- ATS_INVALIDATE. -/
def execAtsInvalidate (addr bytes : Nat) (s : State) : Host.Outcome State Fault Refusal := liveRow true (atsInvalidateOp addr bytes) s

/-- PRI_ENABLE. -/
def execPriEnable (s : State) : Host.Outcome State Fault Refusal := liveRow true (fun s => if s.link.up then priEnableOp s else s) s

/-- ALLOCATION_TIMEOUT. -/
def execAllocationTimeout (cmd : CommandRef) (s : State) : Host.Outcome State Fault Refusal := liveRow true (allocationTimeoutOp cmd) s

/-- EVENT_TOKEN_REFILL. -/
def execEventTokenRefill (source : Nat) (s : State) : Host.Outcome State Fault Refusal :=
  liveRow (decide (source < 256)) (eventTokenRefillOp source) s

/-- EVENT_TILE_CLOSE. -/
def execEventTileClose (ring : Nat) (s : State) : Host.Outcome State Fault Refusal :=
  liveRow (decide (ring < 4)) (eventTileCloseOp ring) s

/-- RING_ENTRY_WRITE: a CQ (16 to 31) or an EV ring (40 to 43). -/
def execRingEntryWrite (index : Nat) (s : State) : Host.Outcome State Fault Refusal :=
  liveRow (decide ((16 ≤ index ∧ index < 32) ∨ (40 ≤ index ∧ index < 44))) (ringEntryWriteOp index) s

/-- COAL_TIME_EXPIRY. -/
def execCoalTimeExpiry (index : Nat) (s : State) : Host.Outcome State Fault Refusal := liveRow (decide (index < 44)) (coalTimeOp index) s

/-- STREAM_PAGE_FILLED. -/
def execStreamPageFilled (ring : Nat) (s : State) : Host.Outcome State Fault Refusal :=
  liveRow (decide (ring < 8)) (streamPageOp ring) s

/-- PERST_L: in PARK as at any other time; while the device is in reset or its clock has failed, the pin's level alone changes. -/
def execPerstL (asserted : Bool) (s : State) : Host.Outcome State Fault Refusal :=
  if s.power.booting ∨ s.power.clockFail then .next (s.onLink fun l => { l with perst := asserted, up := l.up && !asserted })
  else .next (afterRow (perstOp asserted s))

/-- FLR: the link stays up. -/
def execFlr (s : State) : Host.Outcome State Fault Refusal := liveRow true (fun s => if s.link.up then hostReset s else s) s

/-- LINK_UP: 2.5, 5 or 8 GT/s on one or two lanes. -/
def execLinkUp (inp : LinkInputs) (s : State) : Host.Outcome State Fault Refusal :=
  liveRow (decide (1 ≤ inp.speed ∧ inp.speed ≤ 3 ∧ 1 ≤ inp.width ∧ inp.width ≤ 2)) (linkUpOp inp) s

end Sys2Proof.Machine
end

