-- ==== Sys2Proof/Machine/Registers.lean ====
section
/-!
DEFINITION. Machine/Registers.lean: BAR0 as the host writes it and reads it (R5 to R7, R10, R310 to R312, R379, R380, R384, R482 to R495).
-/

namespace Sys2Proof.Machine

/-! ## Writes (R10, R311, R312, R483) -/

/-- A rejected write: counted, with SETUP_REJECT naming the register's offset (R311). -/
def rejectWrite (off : Nat) (s : State) : State :=
  raise (s.onLink fun l => { l with setup := { l.setup with rejects := satN 4294967295 (l.setup.rejects + 1) } }) 113 evSetupReject (w32 off) 0 0

/-- The SETUP registers changed. -/
def onSetup (s : State) (f : Setup → Setup) : State := s.onLink fun l => { l with setup := f l.setup }

/-- A write to an RWL register (R10, R24, R311): rejected after SETUP_LOCK, with a security event, and where the value is outside its range. -/
def writeRwl (off : Nat) (inRange : Bool) (op : State → State) (s : State) : State :=
  if s.link.setup.locked then refusedChange off (rejectWrite off s) else if !inRange then rejectWrite off s else op s

/-- ENABLE set (R311): the base addresses are checked; the ring set table is then read. -/
def tryEnable (s : State) : State :=
  let x := s.link.setup
  if x.enable then s
  else if addr64 x.rstLo x.rstHi = 0 ∨ addr64 x.dbLo x.dbHi = 0 then onSetup s fun x => { x with err := true }
  else (onSetup s fun x => { x with enable := true, err := false }).onLink fun l =>
    { l with tableDue := true, silent := 0, silenceMs := l.setup.silence, pollDue := s.time.gtc, pollFails := false, dbGen := none, rstGen := none, parseAgain := false, allowAt := none }

/-- SETUP_CTRL (R311, R486): SMB_PEC_OFF is written, and a 1 sets ENABLE. -/
def writeCtrl (v : Nat) (s : State) : State :=
  let s := onSetup s fun x => { x with pecOff := bit v 1 }
  if bit v 0 then tryEnable s else s

/-- SETUP_LOCK (R312, R486): 0x4C4B locks, and is rejected once locked; any other value is ignored. -/
def writeSetupLock (v : Nat) (s : State) : State :=
  if v % 65536 = 0x4C4B then (if s.link.setup.locked then rejectWrite 0x104 s else onSetup s fun x => { x with locked := true }) else s

/-- A SETUP register written (R310, R311, R486). -/
def writeSetup (off v : Nat) (s : State) : State :=
  let base := !s.link.setup.enable
  if off = 0x100 then writeRwl off true (writeCtrl v) s
  else if off = 0x104 then writeSetupLock v s
  else if off = 0x108 then writeRwl off true (fun s => onSetup s fun x => { x with deviceId := v % 16384 }) s
  else if off = 0x10C then
    writeRwl off (decide (10 ≤ v % 65536 ∧ v % 65536 ≤ 60000)) (fun s => onSetup s fun x => { x with silence := v % 65536 }) s
  else if off = 0x110 then writeRwl off base (fun s => onSetup s fun x => { x with rstLo := w32 (v / 4096 * 4096) }) s
  else if off = 0x114 then writeRwl off base (fun s => onSetup s fun x => { x with rstHi := w32 v }) s
  else if off = 0x118 then writeRwl off base (fun s => onSetup s fun x => { x with dbLo := w32 (v / 256 * 256) }) s
  else if off = 0x11C then writeRwl off base (fun s => onSetup s fun x => { x with dbHi := w32 v }) s
  else if off = 0x120 then
    writeRwl off (decide (1 ≤ v % 1024 ∧ v % 1024 ≤ 1000)) (fun s => onSetup s fun x => { x with pollRun := v % 1024 }) s
  else
    writeRwl off (decide (50 ≤ v % 131072 ∧ v % 131072 ≤ 100000)) (fun s => onSetup s fun x => { x with pollDoze := v % 131072 }) s

/-- A TIME register written (R384, R487). -/
def writeTime (off v : Nat) (s : State) : State :=
  if off = 0x208 then
    writeRwl off (decide (10 ≤ bits v 23 8 ∧ bits v 23 8 ≤ 10000)) (fun s => s.onTime fun t => { t with auto := bit v 0, interval := bits v 23 8 }) s
  else if off = 0x20C then
    writeRwl off (decide (10 ≤ v % 1048576 ∧ v % 1048576 ≤ 1000000)) (fun s => s.onTime fun t => { t with lateTol := v % 1048576 }) s
  else writeRwl off (decide (400 ≤ v % 524288 ∧ v % 524288 ≤ 400000)) (fun s => s.onTime fun t => { t with stepLimit := v % 524288 }) s

/-- An EVENT_VEC_MAP entry written (R379, R491); those of reserved sources ignore writes. -/
def writeVecMap (src v : Nat) (s : State) : State :=
  if sourceReserved src then s
  else writeRwl (0x400 + src) true (fun s => s.onRouter fun r => { r with vecMap := Tbl.set 0 r.vecMap src (BitVec.ofNat 8 v) }) s

/-- An EVENT_RATE entry written: the refill timer restarts, and the tokens follow the new DEPTH (R380, R491). -/
def setRate (src v : Nat) (s : State) : State :=
  let s := refill s src s.time.gtc
  let old := depthOf s src
  let held := tokensOf s src
  let new := bits v 13 8
  s.onRouter fun r => { r with rate := Tbl.set 0x9004 r.rate src (BitVec.ofNat 16 v), refillAt := Tbl.put r.refillAt src s.time.gtc,
                               tokens := Tbl.put r.tokens src (if old = 0 then new else satN new held) }

/-- A write to an EVENT_RATE entry; those of reserved sources ignore writes (R491). -/
def writeRate (src v : Nat) (s : State) : State := if sourceReserved src then s else writeRwl (0x800 + 2 * src) true (setRate src v) s

/-- VECTOR_CTRL written (R330, R495): a vector that is unmasked sends its pending message. -/
def writeVectorCtrl (v : Nat) (w : Word32) (s : State) : State :=
  let s := s.onLink fun l => { l with msix := Tbl.put l.msix v { Tbl.get {} l.msix v with ctrl := w &&& 1 } }
  if w.getLsbD 0 ∨ ¬ s.link.pba.contains v ∨ ¬ s.link.cfg.msixEnable ∨ s.link.cfg.msixMask then s
  else sendMsi (s.onLink fun l => { l with pba := l.pba.filter (· != v) }) v

/-- A word of the MSI-X table written; the lock does not reach it (R312, R495). -/
def writeMsix (off v : Nat) (s : State) : State :=
  let k := (off - 0x8000) / 16
  let m := msixOf s k
  let put (m : Msix) : State := s.onLink fun l => { l with msix := Tbl.put l.msix k m }
  if off % 16 = 0 then put { m with addrLo := w32 (v / 4 * 4) }
  else if off % 16 = 4 then put { m with addrHi := w32 v }
  else if off % 16 = 8 then put { m with data := w32 v }
  else writeVectorCtrl k (w32 v) s

/-- The writable register that holds a byte of BAR0: its offset and width; none where a write is ignored (R310, R384, R482, R483, R495). -/
def writableReg (a : Nat) : Option (Nat × Nat) :=
  if (0x100 ≤ a ∧ a < 0x128) ∨ (0x208 ≤ a ∧ a < 0x214) ∨ (0x8000 ≤ a ∧ a < 0x8400) then some (a / 4 * 4, 4)
  else if 0x400 ≤ a ∧ a < 0x500 then (if sourceReserved (a - 0x400) then none else some (a, 1))
  else if 0x800 ≤ a ∧ a < 0xA00 then (if sourceReserved ((a - 0x800) / 2) then none else some (a / 2 * 2, 2))
  else none

/-- A register written whole. -/
def writeReg (off v : Nat) (s : State) : State :=
  if off < 0x128 then writeSetup off v s
  else if off < 0x214 then writeTime off v s
  else if off < 0x500 then writeVecMap (off - 0x400) v s
  else if off < 0xA00 then writeRate ((off - 0x800) / 2) v s
  else writeMsix off v s

/-- What a write of `bytes` at `off` does at its byte `i`: the register whose first covered byte this is is written, or rejected when it is covered only in
part (R483). -/
def writeByteOf (off : Nat) (bytes : List Byte) (s : State) (i : Nat) : State :=
  match writableReg (off + i) with
  | none => s
  | some (a, w) =>
    if a < off then (if i = 0 then rejectWrite a s else s)
    else if off + i ≠ a then s
    else if off + bytes.length < a + w then rejectWrite a s
    else writeReg a (leAt bytes i w) s

/-- BAR0_WRITE (R483): the registers covered, in ascending order. -/
def bar0WriteOp (off : Nat) (bytes : List Byte) (s : State) : State := (List.range bytes.length).foldl (writeByteOf off bytes) s

/-- The host reaches BAR0: the link is up. -/
def barRow (known : Bool) (op : State → State) (s : State) : Host.Outcome State Fault Refusal :=
  liveRow known (fun s => if s.link.up then op s else s) s

/-- BAR0_WRITE: nothing lies beyond the 64 KiB of BAR0 (R305). -/
def execBar0Write (offset : Nat) (bytes : List Byte) (s : State) : Host.Outcome State Fault Refusal :=
  if 65536 < offset + bytes.length then .fault (.outsideBar0 offset) else barRow true (bar0WriteOp offset bytes) s

/-- ENABLE: a write of 1 to it, with SMB_PEC_OFF as it stands (R311). -/
def execEnable (s : State) : Host.Outcome State Fault Refusal :=
  barRow true (fun s => writeSetup 0x100 (1 + 2 * ofB s.link.setup.pecOff) s) s

/-- SETUP_LOCK. -/
def execSetupLock (value : Word32) (s : State) : Host.Outcome State Fault Refusal := barRow true (writeSetupLock value.toNat) s

/-- EVENT_RATE_WRITE. -/
def execEventRateWrite (source : Nat) (value : Word16) (s : State) : Host.Outcome State Fault Refusal :=
  barRow (decide (source < 256)) (writeRate source value.toNat) s

/-- VECTOR_CTRL. -/
def execVectorCtrl (vector : Nat) (value : Word32) (s : State) : Host.Outcome State Fault Refusal :=
  barRow (decide (vector < 64)) (writeVectorCtrl vector value) s

/-- TIME_GTC_LO_READ (R487): the upper half of the GTC is latched. -/
def execTimeGtcLoRead (s : State) : Host.Outcome State Fault Refusal :=
  barRow true (fun s => s.onTime fun t => { t with hiLatch := t.gtc / 4294967296 }) s

/-! ## Reads (R483, R485 to R495) -/

/-- SERVICE of IDENT_FW (R485). -/
def serviceCode (s : State) : Nat := if s.fw.rind = .absent then 3 else match s.fw.paste with | .serving => 0 | .down => 2 | _ => 1

/-- The Paste slot whose VERSION is shown: until step 7 of R428 the old one. -/
def shownPaste (s : State) : Nat :=
  match s.fw.handover with
  | some (_, k) => if s.fw.pasteSlot = k then 1 - k else s.fw.pasteSlot
  | none => s.fw.pasteSlot

/-- IDENT_FW (R485). -/
def identFw (s : State) : Nat :=
  let n := s.nvm
  let f := s.fw
  serviceCode s * 268435456 + ofB f.recipe.isSome * 131072 + ofB f.profile.isSome * 65536 + ofB (imageSlot n 0 (1 - f.pasteSlot)).verified.isSome * 512
    + ofB (imageSlot n 1 (1 - f.rindSlot)).verified.isSome * 256 + f.recipeSlot % 2 * 16 + f.profileSlot % 2 * 8 + f.pasteSlot % 2 * 4
    + n.rindSel % 2 * 2 + f.rindSlot % 2

/-- A word of IDENT (R485). -/
def identWord (s : State) (a : Nat) : Nat :=
  match a with
  | 0x00 => 0x68041F9C
  | 0x04 => 0x000001B1
  | 0x08 => Config.serial.toNat % 4294967296
  | 0x0C => Config.serial.toNat / 4294967296
  | 0x10 => s.fw.strap1 % 8 * 256 + s.fw.strap0 % 8 * 32 + ofB s.fw.clkRef * 16 + s.fw.addrCode % 16
  | 0x14 => identFw s
  | 0x18 => (imageSlot s.nvm 1 s.fw.rindSlot).verified.elim 0 (·.version)
  | 0x1C => (imageSlot s.nvm 0 (shownPaste s)).verified.elim 0 (·.version)
  | 0x20 => s.fw.profile.elim 0 (·.profileId)
  | 0x24 => s.fw.profile.elim 0 (·.version)
  | 0x28 => s.fw.recipe.elim 0 (·.version)
  | _ => 0

/-- A word of SETUP (R486); SETUP_LOCK is write-only. -/
def setupWord (s : State) (a : Nat) : Nat :=
  let x := s.link.setup
  match a with
  | 0x100 => ofB x.pecOff * 2 + ofB x.enable
  | 0x108 => x.deviceId
  | 0x10C => x.silence
  | 0x110 => x.rstLo.toNat
  | 0x114 => x.rstHi.toNat
  | 0x118 => x.dbLo.toNat
  | 0x11C => x.dbHi.toNat
  | 0x120 => x.pollRun
  | 0x124 => x.pollDoze
  | 0x128 => x.rejects
  | _ => 0

/-- A word of TIME (R487). -/
def timeWord (s : State) (a : Nat) : Nat :=
  let t := s.time
  match a with
  | 0x200 => t.gtc % 4294967296
  | 0x204 => t.hiLatch
  | 0x208 => t.interval % 65536 * 256 + ofB t.auto
  | 0x20C => t.lateTol
  | 0x210 => t.stepLimit
  | 0x214 => t.stepCount % 65536 * 65536 + ofB t.trimAtLimit * 4 + ofB t.slewing * 2 + ofB t.synced
  | 0x218 => (w32i t.lastCorr).toNat
  | 0x21C => (w32i t.trim).toNat
  | _ => 0

/-- STATUS_DEVICE (R488). -/
def statusDevice (s : State) : Nat :=
  s.cave.mode.code * 262144 + ofB s.cave.everVolatile * 131072 + ofB (Option.isSome s.fw.debug) * 65536 + s.power.mode.code % 4 * 16384
    + ofB s.power.parkPending * 8192 + ofB s.power.brownout * 4096 + ofB (faultL s) * 2048 + ofB s.power.clockFlag * 1024 + ofB s.fw.safeHold * 512
    + ofB (s.fw.paste == .down) * 256 + ofB s.fw.handover.isSome * 128 + ofB s.link.hostLost * 64 + ofB s.link.ringsUp * 8
    + ofB s.link.setup.err * 4 + ofB s.link.setup.locked * 2 + ofB s.link.setup.enable

/-- A 48-bit map of the rings that have a property: bit k for ring set index k (R488). -/
def ringBits (s : State) (p : Ring → Bool) : Nat :=
  ((s.link.rings.filter fun r => decide (r.1 < 48) && p r.2).map fun r => 2 ^ r.1).foldl (· + ·) 0

/-- Rind domain resets of the last 3,600 s of operating time (R432, R488). -/
def rindResetCount (s : State) : Nat := (s.fw.rindResets.filter fun t => decide (s.power.opsec < t + 3600)).length

/-- LEVEL of STATUS_EDGEk (R489): the output of a feed reverse or a supply cell, or XTRIP_L pulled low. -/
def edgeLevel (s : State) (k : Nat) : Bool :=
  if k < 4 then (cellOf s (260 + k)).level else if k < 8 then (cellOf s (336 + k)).level else s.press.xtripLow

/-- STATUS_EDGEk (R489). -/
def edgeWord (s : State) (k : Nat) : Nat :=
  let e : Edge := Tbl.get {} s.cmp.edges k
  e.count % 256 * 256 + ofB (edgeLevel s k) * 4 + ofB e.fall * 2 + ofB e.rise

/-- A word of STATUS (R488, R489). -/
def statusWordAt (s : State) (a : Nat) : Nat :=
  if 0x340 ≤ a ∧ a ≤ 0x360 then edgeWord s ((a - 0x340) / 4)
  else match a with
  | 0x300 => statusDevice s
  | 0x304 => s.link.width % 16 * 16 + s.link.speed % 16
  | 0x308 => ringBits s (·.up) % 4294967296
  | 0x30C => ringBits s (·.up) / 4294967296
  | 0x310 => ringBits s (·.halted) % 4294967296
  | 0x314 => ringBits s (·.halted) / 4294967296
  | 0x318 => ringBits s (·.err) % 4294967296
  | 0x31C => ringBits s (·.err) / 4294967296
  | 0x320 => oldestSeq s.cave % 4294967296
  | 0x324 => visibleSeq s.cave % 4294967296
  | 0x328 => s.cave.nextSeq % 4294967296
  | 0x32C => s.power.opsec % 4294967296
  | 0x330 => s.power.cycle % 16777216
  | 0x334 => satN 255 (rindResetCount s) * 16777216 + s.power.wakeSource % 256 * 65536 + s.power.resetCause % 16
  | 0x338 => s.time.mirrorSeq
  | 0x380 => s.vat.ce
  | 0x384 => s.vat.stale
  | 0x388 => s.vat.unlisted % 65536 * 65536 + s.nvm.retiredTiles.length % 256
  | 0x38C => s.link.prgLate
  | 0x390 => s.router.unrouted
  | 0x394 => s.bus.pecErr
  | _ => 0

/-- A word of an array of 16-bit entries by source: entries of reserved sources read 0 (R490, R491). -/
def pairWord (f : Nat → Nat) (src : Nat) : Nat :=
  (if sourceReserved src then 0 else f src % 65536) + (if sourceReserved (src + 1) then 0 else f (src + 1) % 65536) * 65536

/-- The four EVENT_VEC_MAP entries of a word (R491). -/
def vecMapWord (s : State) (src : Nat) : Nat :=
  let e (k : Nat) : Nat := if sourceReserved (src + k) then 0 else (Tbl.get 0 s.router.vecMap (src + k)).toNat
  e 0 + e 1 * 256 + e 2 * 65536 + e 3 * 16777216

/-- A word of the MSI-X table (R495). -/
def msixWord (s : State) (off : Nat) : Nat :=
  let m := msixOf s (off / 16)
  (match off % 16 / 4 with | 0 => m.addrLo | 1 => m.addrHi | 2 => m.data | _ => m.ctrl).toNat

/-- The PBA as a 64-bit number (R495). -/
def pbaValue (s : State) : Nat := (s.link.pba.map fun v => 2 ^ v).foldl (· + ·) 0

/-- A word of BAR0, at an offset that is a multiple of 4 (R482, R483). -/
def barWord (s : State) (a : Nat) : Nat :=
  if a < 0x100 then identWord s a
  else if a < 0x200 then setupWord s a
  else if a < 0x300 then timeWord s a
  else if a < 0x400 then statusWordAt s a
  else if a < 0x500 then vecMapWord s (a - 0x400)
  else if 0x800 ≤ a ∧ a < 0xA00 then pairWord (rateOf s) ((a - 0x800) / 2)
  else if 0xC00 ≤ a ∧ a < 0xE00 then pairWord (fun k => Tbl.get 0 s.router.drops k) ((a - 0xC00) / 2)
  else if 0x1000 ≤ a ∧ a < 0x2000 then ((mirrorRead s ((a - 0x1000) / 16)).getD (a % 16 / 4) 0).toNat
  else if 0x8000 ≤ a ∧ a < 0x8400 then msixWord s (a - 0x8000)
  else if a = 0x9000 then pbaValue s % 4294967296
  else if a = 0x9004 then pbaValue s / 4294967296
  else 0

/-- The bytes a read of BAR0 returns (R483). -/
def barRead (s : State) (off n : Nat) : List Byte := (List.range n).map fun i => BitVec.ofNat 8 (barWord s ((off + i) / 4 * 4) / 256 ^ ((off + i) % 4))

/-! ## Configuration space and side-band pins (R2, R305, R306, R308) -/

/-- What the configuration space says of the function (R2, R305): identity, class, the number of functions, the serial number of the Device Serial Number
capability, and the capabilities that depend on a setting. Where a field lies is PCI Express's, not the manual's. -/
structure ConfigSpace where
  vendor : Nat
  device : Nat
  classCode : Nat
  functions : Nat
  serialNumber : Word64
  /-- Speed and width of the Link Status register (R306). -/
  linkSpeed : Nat
  linkWidth : Nat
  ats : Bool
  pri : Bool
  ptm : Bool
  /-- MSI-X, request and payload sizes, AER and ASPM as the host has set them, and the power state D3hot (R305). -/
  host : LinkConfig
  d3hot : Bool
  /-- L1.1 of L1 PM Substates is advertised (R308). -/
  l1Substates : Bool
deriving DecidableEq, Repr

/-- The configuration space as it reads (R2, R306, R308). -/
def configSpace (s : State) : ConfigSpace :=
  { vendor := 0x1F9C, device := 0x6804, classCode := 0x088000, functions := 1, serialNumber := Config.serial, linkSpeed := s.link.speed,
    linkWidth := s.link.width, ats := s.link.ats, pri := s.link.pri, ptm := s.link.ptm, host := s.link.cfg, d3hot := s.link.d3hot, l1Substates := !s.fw.clkRef }

/-- CLKREQ_L is asserted (R308): with REFCLK as the reference always in RUN and DOZE, with the crystal but for the time in L1. Whether the link is in L1 is
ASPM's and no state of the model. -/
def clkreqAsserted (s : State) (inL1 : Bool) : Bool := s.power.mode != .park && (s.fw.clkRef || !inL1)

end Sys2Proof.Machine
end

