-- ==== Sys2Proof/Machine/Spdm.lean ====
section
/-!
DEFINITION. Machine/Spdm.lean: the DOE mailbox: DOE Discovery and the SPDM responder (R335, R336). Codes of the two standards are those of log entry 22.
-/

namespace Sys2Proof.Machine

/-- A request in the mailbox answered (R335): whenever the link is up, whatever ENABLE and SETUP_LOCK hold; Rind is the responder. -/
def doeRow (reply : State → DoeReply) (s : State) : Host.Outcome State Fault Refusal :=
  rindRow (fun s => if s.link.up then s.onLink fun l => { l with doe := reply s } else s) s

/-- A request whose answer takes a fresh nonce (R335, log entry 5). -/
def nonceRow (reply : List Byte → State → DoeReply) (s : State) : Host.Outcome State Fault Refusal :=
  rindRow (fun s => if s.link.up then let d := draw s; d.2.onLink fun l => { l with doe := reply (toLe d.1 32) s } else s) s

/-- DOE Discovery (R335): DOE Discovery itself at index 0, CMA/SPDM at index 1. -/
def discoveryReply (index : Nat) : DoeReply :=
  match index with
  | 0 => .discovery 0 1 0 1
  | 1 => .discovery 1 1 1 0
  | n => .discovery n 0xFFFF 0xFF 0

/-- The code of an ERROR response: UnsupportedRequest, InvalidRequest (log entry 22). -/
abbrev errUnsupported : Nat := 0x07
abbrev errInvalid : Nat := 0x01

/-- GET_CERTIFICATE (R335): slot 0 alone is provisioned. -/
def certificateReply (slot offset length : Nat) : DoeReply :=
  let c := Config.certificateChain
  if slot ≠ 0 ∨ c.length < offset then .error errInvalid
  else
    let p := (c.drop offset).take length
    .certificate 0 p (c.length - offset - p.length)

/-- CHALLENGE (R335): the signature covers both nonces and the digest of the chain. -/
def challengeReply (slot : Nat) (theirs ours : List Byte) : DoeReply :=
  if slot ≠ 0 then .error errInvalid
  else .challengeAuth 0 ours (Config.deviceSignature (theirs ++ ours ++ sha256 Config.certificateChain))

/-- The digest and version of a running image. -/
def imageBlock (sl : ImageSlot) : List Byte :=
  match sl.verified with
  | some i => i.digest ++ toLe i.version 4
  | none => List.replicate 36 0

/-- The measurement blocks, each built as the response is (R336). -/
def measurementBlock (s : State) (k : Nat) : List Byte :=
  match k with
  | 1 => Config.romDigest
  | 2 => imageBlock (imageSlot s.nvm 1 s.fw.rindSlot)
  | 3 => imageBlock (imageSlot s.nvm 0 s.fw.pasteSlot)
  | 4 => (match s.fw.profile with | some p => p.digest ++ toLe p.profileId 4 ++ toLe p.version 4 | none => List.replicate 40 0)
  | 5 => (match s.fw.recipe with | some r => r.digest | none => List.replicate 32 0)
  | _ => toLe s.nvm.rindFloor 4 ++ toLe s.nvm.pasteFloor 4 ++ toLe s.nvm.profileFloor 4 ++ toLe s.nvm.recipeFloor 4

/-- The blocks that GET_MEASUREMENTS asks for: index 0 none but their number, 0xFF all (log entry 22). -/
def measurementsAsked (s : State) (index : Nat) : List (Nat × List Byte) :=
  (if index = 0 then [] else if index = 0xFF then [1, 2, 3, 4, 5, 6] else [index]).map fun k => (k, measurementBlock s k)

/-- GET_MEASUREMENTS (R336). -/
def measurementsReply (index : Nat) (theirs ours : List Byte) (s : State) : DoeReply :=
  if 6 < index ∧ index ≠ 0xFF then .error errInvalid
  else
    let bs := measurementsAsked s index
    .measurements 6 bs ours (Config.deviceSignature (theirs ++ ours ++ bs.flatMap (·.2)))

/-- DOE_DISCOVERY. -/
def execDoeDiscovery (index : Nat) (s : State) : Host.Outcome State Fault Refusal := doeRow (fun _ => discoveryReply index) s

/-- GET_VERSION: SPDM 1.2 (R335). -/
def execGetVersion (s : State) : Host.Outcome State Fault Refusal := doeRow (fun _ => .version 0x12) s

/-- GET_CAPABILITIES: CERT_CAP, CHAL_CAP and MEAS_CAP with signatures (R335). -/
def execGetCapabilities (_flags : Word32) (s : State) : Host.Outcome State Fault Refusal := doeRow (fun _ => .capabilities 0x16) s

/-- NEGOTIATE_ALGORITHMS: ECDSA P-256 and SHA-256, where the request offers them (R335). -/
def execNegotiateAlgorithms (asymAlgos hashAlgos : Word32) (s : State) : Host.Outcome State Fault Refusal :=
  doeRow (fun _ => .algorithms (asymAlgos &&& 0x10) (hashAlgos &&& 0x1)) s

/-- GET_DIGESTS: the digest of the chain of slot 0 (R335). -/
def execGetDigests (s : State) : Host.Outcome State Fault Refusal := doeRow (fun _ => .digests 1 (sha256 Config.certificateChain)) s

/-- GET_CERTIFICATE. -/
def execGetCertificate (slot offset length : Nat) (s : State) : Host.Outcome State Fault Refusal :=
  doeRow (fun _ => certificateReply slot offset length) s

/-- CHALLENGE. -/
def execChallenge (slot : Nat) (nonce : List Byte) (s : State) : Host.Outcome State Fault Refusal :=
  nonceRow (fun ours _ => challengeReply slot nonce ours) s

/-- GET_MEASUREMENTS. -/
def execGetMeasurements (index : Nat) (nonce : List Byte) (s : State) : Host.Outcome State Fault Refusal :=
  nonceRow (fun ours s => measurementsReply index nonce ours s) s

/-- SPDM_UNSUPPORTED_REQUEST. -/
def execSpdmUnsupportedRequest (_code : Byte) (s : State) : Host.Outcome State Fault Refusal := doeRow (fun _ => .error errUnsupported) s

end Sys2Proof.Machine
end

