-- ==== Sys2Proof/Machine/TimeRows.lean ====
section
/-!
DEFINITION. Machine/TimeRows.lean: PTM: dialogues, the trim, slews and steps of the GTC, and the loss of synchronisation (R370, R385 to R388).
-/

namespace Sys2Proof.Machine

/-! ## Steps of the GTC (R386, R387) -/

/-- A time of the GTC moved with it. -/
def moved (d : Int) (t : Nat) : Nat := ((t : Int) + d).toNat

/-- What the part times by itself goes on through a step: the instants from which the leaves' timers run are moved with the GTC. -/
def moveLeaf (d : Int) (l : Leaf) : Leaf :=
  { l with
    ramp := { l.ramp with lastVAt := moved d l.ramp.lastVAt, lastIAt := moved d l.ramp.lastIAt, stallAt := moved d l.ramp.stallAt },
    diag := { l.diag with leakAt := moved d l.diag.leakAt, gateFrom := moved d l.diag.gateFrom },
    pwm := { l.pwm with startAt := moved d l.pwm.startAt, blankUntil := moved d l.pwm.blankUntil },
    tel := { l.tel with
      iSamples := l.tel.iSamples.map fun p => (moved d p.1, p.2), pTicks := l.tel.pTicks.map fun p => (moved d p.1, p.2),
      edges := l.tel.edges.map fun p => (moved d p.1, p.2), clippedAt := l.tel.clippedAt.map (moved d), vValidAt := l.tel.vValidAt.map (moved d) } }

/-- The instants of the measurement banks, of sequences and of streams. -/
def moveMeas (d : Int) (m : Measure) : Measure :=
  { m with
    nodes := m.nodes.map fun p => (p.1, { p.2 with at_ := moved d p.2.at_, settleUntil := moved d p.2.settleUntil,
                                                   held := p.2.held.map fun h => (h.1, moved d h.2) }),
    banks := m.banks.map fun p => (p.1, { p.2 with refAt := moved d p.2.refAt, rotatedAt := moved d p.2.rotatedAt, checksAt := moved d p.2.checksAt,
                                                   calAt := p.2.calAt.map fun c => (c.1, moved d c.2) }),
    seqs := m.seqs.map fun p => (p.1, { p.2 with armed := p.2.armed.map fun a => (a.1, moved d a.2.1, a.2.2),
                                                 burst := p.2.burst.map fun b => (b.1, moved d b.2.1, b.2.2) }),
    streams := m.streams.map fun p => (p.1, { p.2 with pageAt := moved d p.2.pageAt }) }

/-- The instants of the host link and of the router. -/
def moveLink (d : Int) (l : Link) : Link :=
  { l with
    pollDue := moved d l.pollDue, allowAt := l.allowAt.map (moved d), hostLostAt := moved d l.hostLostAt,
    regRestartAt := l.regRestartAt.map (moved d), rings := l.rings.map fun p => (p.1, { p.2 with coalAt := moved d p.2.coalAt }),
    evOpenAt := l.evOpenAt.map fun p => (p.1, moved d p.2), xfers := l.xfers.map fun p => (p.1, { p.2 with prgAt := moved d p.2.prgAt }),
    flights := l.flights.map fun f => { f with waitAt := f.waitAt.map (moved d) } }

/-- Every instant that stands for a running timer moved with the GTC (R386, log entry 23); times that commands, records and rows name stay. -/
def moveTimers (d : Int) (s : State) : State :=
  let s := s.onPress fun p => { p with leaves := p.leaves.map fun x => (x.1, moveLeaf d x.2) }
  let s := (s.onMeas (moveMeas d)).onLink (moveLink d)
  let s := s.onRouter fun r => { r with refillAt := (List.range 256).map fun k => (k, moved d (Tbl.get 0 r.refillAt k)), lastStamp := 0 }
  let s := s.onCmp fun c => { c with cells := c.cells.map fun p => (p.1, { p.2 with holdUntil := moved d p.2.holdUntil }) }
  let s := s.onFw fun f => { f with pasteAt := moved d f.pasteAt, gapEnd := moved d f.gapEnd }
  let s := s.onBus fun b => { b with backoffUntil := moved d b.backoffUntil, hangUntil := moved d b.hangUntil,
                                     bulk := b.bulk.map fun k => { k with at_ := moved d k.at_ } }
  let s := s.onCave fun c => { c with openEnd := moved d c.openEnd }
  let s := s.onVat fun v => { v with retained := v.retained.map fun r => (r.1, { r.2 with at_ := moved d r.2.at_ }) }
  s.onTime fun t => { t with dialogueAt := moved d t.dialogueAt, goodAt := moved d t.goodAt }

/-- The error rounded to the nearest multiple of 3,200 (R386). -/
def stepOf (e : Int) : Int := (e + 1600) / 3200 * 3200

/-- A step applied at a tick boundary (R386, R387). -/
def stepGtc (e : Int) (s : State) : State :=
  let d := stepOf e
  let s := moveTimers d s
  let s := s.onTime fun t =>
    let g := (((t.gtc : Int) + d) % 18446744073709551616).toNat
    { t with gtc := g, stepCount := satN 65535 (t.stepCount + 1), synced := true, slewLeft := (e - d) * 100000000, slewing := decide (e ≠ d),
             mirrorDue := if d < 0 then (g / 40000 + 1) * 40000 else t.mirrorDue }
  raise s 79 evTimeStep (w32i d) (w32i (d / 4294967296)) 0

/-! ## Dialogues (R370, R385) -/

/-- PTM_DIALOGUE: every INTERVAL while AUTO is set and PTM is enabled (R385). -/
def ptmDialogueOp (s : State) : State :=
  if s.link.up ∧ s.link.ptm ∧ s.time.auto ∧ s.time.dialogue.isNone ∧ s.time.dialogueAt + s.time.interval * 400000 ≤ s.time.gtc then beginDialogue s
  else s

/-- The time of the host in GTC ticks, from the host's time in ns (R385, log entry 7). -/
def hostTicks (ns : Nat) : Int := roundStep ((ns : Rat) * 2 / 5)

/-- An error saturating at ±(2³¹ - 1) (R370, R384). -/
def satErr (e : Int) : Int := clampI (-2147483647) 2147483647 e

/-- The TIME_SYNC commands that wait for the dialogue. -/
def syncWaiters (s : State) : List Flight := s.link.flights.filter fun f => f.phase == .dialogue

/-- A TIME_SYNC completes after its dialogue (R370): `local_` and `host` at the dialogue, and the error corrected. -/
def endTimeSync (local_ : Nat) (host e : Int) (s : State) (f : Flight) : State :=
  let s := if f.sub.bufAddr = 0 then s
    else bufferWrite s f (toLe local_ 8 ++ toLe (host % 18446744073709551616).toNat 8 ++ toLe (e % 18446744073709551616).toNat 8
      ++ toLe (ofB (!s.time.synced)) 4 ++ [0, 0, 0, 0])
  doneWith s f stOk (w32i (satErr e))

/-- PTM_FAIL (R385): nothing changes but the event; the status of a TIME_SYNC that waited is a free choice among the codes a completion carries other than OK
(log entry 24). -/
def ptmFailOp (s : State) : State :=
  match s.time.dialogue with
  | none => s
  | some _ =>
    let s := raise (s.onTime fun t => { t with dialogue := none }) 79 evPtmFail 0 0 0
    (syncWaiters s).foldl (fun s f => let d := draw s; doneWith d.2 f (1 + d.1 % 17) 0) s

/-- PTM_RESPONSE (R385, R386): the error, the trim's rate value, and a slew or a step; after 10 ms the dialogue has timed out. -/
def ptmResponseOp (ns : Nat) (s : State) : State :=
  match s.time.dialogue with
  | none => s
  | some began =>
    if began + 4000000 ≤ s.time.gtc then ptmFailOp s
    else
      let host := hostTicks ns
      let now := s.time.gtc
      let e := host - (now : Int)
      let r : Int := trimRange s
      let rate := clampI (-r) r (Config.trimRate s.time.lastCorr e (now - s.time.goodAt))
      let s := s.onTime fun t => { t with dialogue := none, lastCorr := satErr e, rateTrim := rate, trim := rate, trimAtLimit := rate.natAbs == trimRange s,
                                          goodAt := now }
      let s := if e.natAbs ≤ s.time.stepLimit ∧ s.time.synced then
          s.onTime fun t => { t with slewLeft := e * 100000000, slewing := decide (e ≠ 0) }
        else stepGtc e s
      (syncWaiters s).foldl (endTimeSync now host e) s

/-- The time without a successful dialogue after which SYNCED clears: the longer of 1 s and three times INTERVAL (R388). -/
def holdover (s : State) : Nat := Nat.max 400000000 (3 * s.time.interval * 400000)

/-- TIME_UNSYNC (R388). -/
def timeUnsyncOp (s : State) : State :=
  if s.time.synced ∧ s.time.goodAt + holdover s ≤ s.time.gtc then raise (s.onTime fun t => { t with synced := false }) 79 evTimeUnsync 0 0 0 else s

/-- PTM_DIALOGUE. -/
def execPtmDialogue (s : State) : Host.Outcome State Fault Refusal := rindRow ptmDialogueOp s

/-- PTM_RESPONSE: the host's time in ns at the arrival of the response. -/
def execPtmResponse (hostTime : Nat) (s : State) : Host.Outcome State Fault Refusal := rindRow (ptmResponseOp hostTime) s

/-- PTM_FAIL. -/
def execPtmFail (s : State) : Host.Outcome State Fault Refusal := rindRow ptmFailOp s

/-- TIME_UNSYNC. -/
def execTimeUnsync (s : State) : Host.Outcome State Fault Refusal := rindRow timeUnsyncOp s

end Sys2Proof.Machine
end

