-- ==== Sys2Proof/Machine/FirmwareRows.lean ====
section
/-!
DEFINITION. Machine/FirmwareRows.lean: the rows of Rind, Paste and the debug port (R296, R424, R426, R428, R430 to R434).
-/

namespace Sys2Proof.Machine

/-- RIND_DOMAIN_RESET (R431). -/
def execRindDomainReset (s : State) : Host.Outcome State Fault Refusal := rindRow rindDomainResetOp s

/-- RIND_RESTART (R431, R432). -/
def execRindRestart (s : State) : Host.Outcome State Fault Refusal := liveRow true rindRestartOp s

/-- PASTE_WATCHDOG (R424): the cores whose heartbeat stood still at this check. -/
def execPasteWatchdog (stalled : List Nat) (s : State) : Host.Outcome State Fault Refusal :=
  liveRow true (pasteWatchdogOp (stalled.filter (· < 4))) s

/-- PASTE_FAULT (R296). -/
def execPasteFault (core : Nat) (access : TileAccess) (s : State) : Host.Outcome State Fault Refusal :=
  liveRow (decide (core < 4 ∧ access.tile < 8192)) (pasteFaultOp core access) s

/-- PASTE_TRAP (R424). -/
def execPasteTrap (core : Nat) (s : State) : Host.Outcome State Fault Refusal := liveRow (decide (core < 4)) (pasteFails .crash) s

/-- PASTE_SELF_CHECK (R426, R428). -/
def execPasteSelfCheck (pass : Bool) (s : State) : Host.Outcome State Fault Refusal := liveRow true (pasteSelfCheckOp pass) s

/-- DEBUG_TOKEN (R433, R434). -/
def execDebugToken (token : List Byte) (s : State) : Host.Outcome State Fault Refusal := rindRow (debugTokenOp token) s

/-- DEBUG_UNLOCK_EXPIRY (R434). -/
def execDebugUnlockExpiry (s : State) : Host.Outcome State Fault Refusal := rindRow debugUnlockExpiryOp s

end Sys2Proof.Machine
end

