-- ==== Sys2Proof/Machine/Bus.lean ====
section
/-!
DEFINITION. Machine/Bus.lean: the two-wire management bus: who serves it, its commands, the status word, Host Notify and hang recovery (R458 to R481).
-/

namespace Sys2Proof.Machine

/-! ## Who serves a command (R465 to R468) -/

/-- Who serves the bus (R466). -/
inductive Server where
  | paste | rind | down | rom | nobody
deriving DecidableEq, Repr

/-- The server at present. -/
def serverOf (s : State) : Server :=
  if s.fw.rind = .absent then .rom
  else match s.fw.paste with
    | .serving => .paste
    | .down => if s.fw.rind = .running then .down else .nobody
    | _ => if s.fw.rind = .running then .rind else .nobody

/-- A row of R467: the classes that may use a code, and whether Rind serves it while Paste is unavailable (R), and while Paste is down (R*). -/
structure BusCode where
  diag : Bool
  rind : Bool
  down : Bool
  rom : Bool
deriving DecidableEq, Repr

/-- The command codes (R466, R467). -/
def busCode (code : Nat) : Option BusCode :=
  match code with
  | 0x00 | 0x01 => some ⟨true, true, true, true⟩
  | 0x02 => some ⟨false, true, false, false⟩
  | 0x08 => some ⟨false, true, true, true⟩
  | 0x10 | 0x11 => some ⟨true, true, false, false⟩
  | 0x20 | 0x21 => some ⟨true, true, true, false⟩
  | 0x22 => some ⟨false, true, false, false⟩
  | 0x30 => some ⟨false, false, false, false⟩
  | 0x40 | 0x41 | 0x42 => some ⟨false, true, true, true⟩
  | 0x50 => some ⟨false, true, false, false⟩
  | _ => none

/-- A code is served to a class at this moment (R464, R466 to R468). -/
def busServed (s : State) (cls : BusClass) (code : Nat) : Bool :=
  match busCode code with
  | none => false
  | some c =>
    (cls == .management || c.diag) && match serverOf s with
      | .paste => true
      | .rind => c.rind
      | .down => c.down
      | .rom => c.rom
      | .nobody => false

/-- Codes whose writes are action commands (R468). -/
def isAction (code : Nat) : Bool := [0x02, 0x22, 0x30, 0x40, 0x41, 0x42, 0x50].contains code

/-- The device's answer to the transaction. -/
def answer (r : BusReply) (s : State) : State := s.onBus fun b => { b with reply := r }

/-- What a transaction meets at its address and its command code: in reset and after a clock failure nothing answers; in PARK the management class waits for
its wake and the diagnostic class is NACKed; else the code is refused or the transaction goes on (R465, R468). -/
def busRow (cls : BusClass) (code : Nat) (action : Bool) (act : State → State) (s : State) : Host.Outcome State Fault Refusal :=
  if s.power.booting ∨ s.power.clockFail then .next (answer .none s)
  else if s.power.mode = .park then .next (answer (match cls with | .management => .none | .diagnostic => .nackAddress) s)
  else if !busServed s cls code || (action && (busClass s cls).rState == 1) then .next (afterRow (answer .nackCode s))
  else .next (afterRow (act s))

/-- A read answered with its bytes. -/
def busRead (cls : BusClass) (code : Nat) (bytes : State → List Byte) (after : State → State) (s : State) : Host.Outcome State Fault Refusal :=
  busRow cls code false (fun s => after (answer (.data (bytes s)) s)) s

/-- A write's count, value and PEC (R460, R461, R468): it acts when all are right. -/
def takeWrite (w : BusWrite) (fits : List Byte → Bool) (act : List Byte → State → State) (s : State) : State :=
  if !fits w.bytes then answer .nackData s
  else match w.pec with
    | .bad => (answer .nackPec s).onBus fun b => { b with pecErr := satN 4294967295 (b.pecErr + 1) }
    | .missing =>
      if s.link.setup.pecOff then answer .ack (act w.bytes s)
      else (answer .discarded s).onBus fun b => { b with pecErr := satN 4294967295 (b.pecErr + 1) }
    | .good => answer .ack (act w.bytes s)

/-- A write of a command that is no action command. -/
def busSet (cls : BusClass) (code : Nat) (w : BusWrite) (fits : List Byte → Bool) (act : List Byte → State → State) (s : State) :
    Host.Outcome State Fault Refusal :=
  busRow cls code false (takeWrite w fits act) s

/-- An action command: once accepted, its class's RESULT is pending and its SEQ advances (R472). -/
def busAction (cls : BusClass) (code : Nat) (w : BusWrite) (fits : List Byte → Bool) (act : List Byte → State → State) (s : State) :
    Host.Outcome State Fault Refusal :=
  busRow cls code true
    (takeWrite w fits fun bs s => act bs (onClass s cls fun c => { c with rSeq := (c.rSeq + 1) % 256, rState := 1, rStatus := 0, rResult := 0 })) s

/-- The length of a block, or of the data of a byte or word write. -/
def ofLen (n : Nat) (bs : List Byte) : Bool := bs.length == n

/-- A Write Byte with the one value it takes. -/
def ofValue (v : Nat) (bs : List Byte) : Bool := bs.length == 1 && byteAt bs 0 == v

/-! ## Reads (R467 to R470, R472, R475, R476) -/

/-- IDENT (R468). -/
def identBlock (s : State) : List Byte :=
  toLe 0x1F9C 2 ++ toLe 0x6804 2 ++ toLe Config.serial.toNat 8 ++ toLe s.link.setup.deviceId 2 ++ toLe (s.fw.addrCode % 16 + serviceCode s * 16) 1 ++ [0]

/-- RESULT of a class (R472). -/
def resultBlock (c : BusClassState) : List Byte := toLe c.rSeq 1 ++ toLe c.rState 1 ++ toLe c.rStatus 2 ++ toLe c.rResult.toNat 4

/-- TELEM_READ (R469). -/
def telemBlock (s : State) (u : Nat) : List Byte :=
  if 71 ≤ u ∧ u < 128 then List.replicate 20 0
  else toLe (handleOf s u).toNat 4 ++ ((mirrorRead s u).take 4).flatMap fun w => toLe w.toNat 4

/-- The records a CAVE_READ returns from a class's pointer (R364, R470). -/
def caveBlockRecs (s : State) (c : BusClassState) : List CaveRec := logRecords s.cave c.cavePtr 7 (bit c.caveFlags 0) (bit c.caveFlags 1) false

/-- CAVE_READ (R470). -/
def caveBlock (s : State) (c : BusClassState) : List Byte :=
  let rs := caveBlockRecs s c
  toLe (oldestSeq s.cave) 4 ++ toLe (visibleSeq s.cave) 4 ++ toLe s.cave.nextSeq 4 ++ toLe s.cave.mode.code 1 ++ toLe rs.length 1 ++ rs.flatMap recBytes
    ++ toLe (oldestSeq s.cave) 4 ++ toLe s.cave.nextSeq 4

/-- The pointer moves past the last record of a block (R470). -/
def caveAdvance (cls : BusClass) (rs : List CaveRec) (s : State) : State :=
  match rs.getLast? with
  | some r => onClass s cls fun c => { c with cavePtr := r.seq + 1 }
  | none => s

/-- IDENT. -/
def execIdent (cls : BusClass) (s : State) : Host.Outcome State Fault Refusal := busRead cls 0x00 identBlock id s

/-- STATUS_WORD: a management read clears the latched bits it returns (R476). -/
def execStatusWord (cls : BusClass) (s : State) : Host.Outcome State Fault Refusal :=
  busRead cls 0x01 (fun s => toLe (statusWord s).toNat 2)
    (fun s => match cls with | .management => s.onBus fun b => { b with latched := 0 } | .diagnostic => s) s

/-- NOTIFY_MASK read. -/
def execNotifyMaskRead (cls : BusClass) (s : State) : Host.Outcome State Fault Refusal :=
  busRead cls 0x02 (fun s => toLe s.bus.notifyMask.toNat 2) id s

/-- NOTIFY_MASK write: it completes at once with OK (R472, R477). -/
def execNotifyMaskWrite (cls : BusClass) (w : BusWrite) (s : State) : Host.Outcome State Fault Refusal :=
  busAction cls 0x02 w (ofLen 2) (fun bs s => busDone (s.onBus fun b => { b with notifyMask := BitVec.ofNat 16 (leAt bs 0 2) }) cls stOk 0) s

/-- RESULT: a done state returns to idle (R472). -/
def execResult (cls : BusClass) (s : State) : Host.Outcome State Fault Refusal :=
  busRead cls 0x08 (fun s => resultBlock (busClass s cls)) (fun s => onClass s cls fun c => { c with rState := if c.rState = 2 then 0 else c.rState }) s

/-- TELEM_SELECT (R469). -/
def execTelemSelect (cls : BusClass) (w : BusWrite) (s : State) : Host.Outcome State Fault Refusal :=
  busSet cls 0x10 w (ofLen 1) (fun bs s => onClass s cls fun c => { c with unit := byteAt bs 0 }) s

/-- TELEM_READ (R469). -/
def execTelemRead (cls : BusClass) (s : State) : Host.Outcome State Fault Refusal :=
  busRead cls 0x11 (fun s => telemBlock s (busClass s cls).unit) id s

/-- The Cave pointer set, the open record committed (R403, R470). -/
def caveSelectOp (cls : BusClass) (bs : List Byte) (s : State) : State :=
  let s := commitOpen s
  let fl := byteAt bs 4
  onClass s cls fun c => { c with cavePtr := if bit fl 2 then visibleSeq s.cave else leAt bs 0 4, caveFlags := fl }

/-- CAVE_SELECT (R470). -/
def execCaveSelect (cls : BusClass) (w : BusWrite) (s : State) : Host.Outcome State Fault Refusal :=
  busSet cls 0x20 w (ofLen 8) (caveSelectOp cls) s

/-- CAVE_READ (R470). -/
def execCaveRead (cls : BusClass) (s : State) : Host.Outcome State Fault Refusal :=
  busRow cls 0x21 false (fun s => let c := busClass s cls; caveAdvance cls (caveBlockRecs s c) (answer (.data (caveBlock s c)) s)) s

/-- POWER_SETTINGS read (R475). -/
def execPowerSettingsRead (cls : BusClass) (s : State) : Host.Outcome State Fault Refusal :=
  busRead cls 0x50 (fun s => toLe s.nvm.vWarn 4 ++ toLe s.nvm.wakeTimer 4) id s

/-! ## CAVE_CLEAR, UNIT_CMD, POWER_SETTINGS (R471, R473, R475) -/

/-- A clear for the bus (R406, R471): the command LOG_CLEAR of the bus, done by Rind at once where Paste does not serve. -/
def caveClearOp (cls : BusClass) (s : State) : State :=
  let s := addFlight s (.bus cls) .logClear (ownSub 0 0 0 []) .waiting
  if s.fw.paste = .serving then s
  else match s.link.flights.getLast? with
    | some f => runLogClear f s
    | none => s

/-- CAVE_CLEAR (R471): the value byte is 0x43. -/
def execCaveClear (cls : BusClass) (w : BusWrite) (s : State) : Host.Outcome State Fault Refusal :=
  busAction cls 0x22 w (ofValue 0x43) (fun _ s => caveClearOp cls s) s

/-- Every leaf of a unit's mask grants BUS_CTRL (R473). -/
def busControls (s : State) (u : Nat) : Bool := (maskOf s u).all fun l => (leafOf s (slotOf s l)).env.busCtrl

/-- UNIT_CMD (R24, R338, R473): ACTION, the handle, BUS_CTRL, the device state, and then the host command of that opcode. -/
def unitCmdOp (cls : BusClass) (bs : List Byte) (s : State) : State :=
  let h := w32 (leAt bs 0 4)
  let a := byteAt bs 4
  let op : Op := if a = 1 then .unitOn else .unitOff
  if 2 < a then busDone s cls stRange 0
  else match checkHandle s op 0 h with
    | some st => busDone s cls st 0
    | none =>
      if !busControls s (handleUnit h) then busDone (let d := draw s; refusedChange d.1 d.2) cls stEnvelope 0
      else match check6 s op with
        | some st => busDone s cls st 0
        | none => addFlight s (.bus cls) op (ownSub h (if a = 2 then 4 else 0) 0 []) .waiting

/-- UNIT_CMD. -/
def execUnitCmd (cls : BusClass) (w : BusWrite) (s : State) : Host.Outcome State Fault Refusal := busAction cls 0x30 w (ofLen 6) (unitCmdOp cls) s

/-- Both copies of the power settings record written (R444, R475). -/
def writeSettings (v t : Nat) (s : State) : State := refreshCode (s.onNvm fun n => { n with vWarn := v, wakeTimer := t }) 341

/-- POWER_SETTINGS write (R475). -/
def settingsOp (cls : BusClass) (bs : List Byte) (s : State) : State :=
  let v := leAt bs 0 4
  let t := leAt bs 4 4
  if v < 4500 ∨ 9000 < v ∨ 16777215 < t then busDone s cls stRange 0
  else if s.fw.rind ≠ .running then busDone s cls stBusy 0
  else if s.power.brownout then s.onBus fun b => { b with held := some (.settings v t) }
  else busDone (writeSettings v t s) cls stOk 0

/-- POWER_SETTINGS write. -/
def execPowerSettingsWrite (cls : BusClass) (w : BusWrite) (s : State) : Host.Outcome State Fault Refusal :=
  busAction cls 0x50 w (ofLen 8) (settingsOp cls) s

/-! ## BULK (R419, R420, R474) -/

/-- The slot that a bulk image goes to: target 1 Rind for KIND 1, 0 Paste for KIND 2, and the inactive slot of the target. -/
def bulkTarget (kind : Nat) : Nat := if kind = 1 then 1 else 0
def bulkSlot (s : State) (kind : Nat) : Nat := if kind = 1 then 1 - selectedSlot s.nvm 1 else inactiveSlot s 0

/-- A kind that may not be opened now (R474). -/
def bulkRefused (s : State) (kind : Nat) : Bool :=
  match kind with
  | 0 => s.fw.paste != .serving
  | 1 => s.fw.rind != .absent
  | 2 => s.fw.paste != .down
  | _ => false

/-- The bytes of a session of KIND 0 put in its bulk tiles: a tile is closed as it is full (R285, R474). -/
def fillBulk (b : Bulk) (s : State) : State :=
  let t := takeTiles 69 (tilesFor b.bytes.length - b.tiles.length) s
  let rs := b.tiles ++ t.2
  let s := (List.range rs.length).foldl (fun s i =>
    let r := rs.getD i (8192, 0)
    if (tagOf s r.1).state = .filling ∧ 512 * (i + 1) ≤ b.bytes.length then closeRef s r (some (slice b.bytes (512 * i) 512)) else s) t.1
  s.onBus fun x => { x with bulk := some { b with tiles := rs } }

/-- A session ends: its bulk tiles are released. -/
def endBulk (s : State) : State :=
  match s.bus.bulk with
  | some b => freeRefs (s.onBus fun x => { x with bulk := none }) 69 b.tiles
  | none => s

/-- The limit of a kind's TOTAL (R474). -/
def bulkLimit (kind : Nat) : Nat := if kind = 2 then 2097152 else 262144

/-- BULK_OPEN (R24, R474): an image that the bus may not deliver now is a change attempted by no party to it; else the session, and for an image its slot without its verified mark. -/
def bulkOpenOp (cls : BusClass) (bs : List Byte) (s : State) : State :=
  let kind := byteAt bs 0
  let total := leAt bs 4 4
  if bulkRefused s kind then busDone (if kind = 0 then s else let d := draw s; refusedChange d.1 d.2) cls stState 0
  else if 2 < kind ∨ bulkLimit kind < total then busDone s cls stRange 0
  else
    let s := (endBulk s).onBus fun b => { b with bulk := some { kind := kind, total := total, bytes := [], at_ := s.time.gtc } }
    let s := if kind = 0 then s
      else
        let t := bulkTarget kind
        let k := bulkSlot s kind
        setImageSlot s t k { imageSlot s.nvm t k with verified := none }
    busDone s cls stOk 0

/-- BULK_OPEN. -/
def execBulkOpen (cls : BusClass) (w : BusWrite) (s : State) : Host.Outcome State Fault Refusal := busAction cls 0x40 w (ofLen 8) (bulkOpenOp cls) s

/-- A chunk at the expected offset taken into its session, and for an image written to its slot (R474); one for which there is no bulk tile ends with BUSY
at once (R294, log entry 94). -/
def takeChunk (cls : BusClass) (d : List Byte) (s : State) : State :=
  match s.bus.bulk with
  | none => busDone s cls stRange 0
  | some b =>
    let c := { b with bytes := b.bytes ++ d }
    if b.kind = 0 then
      (if tilesAvailable s 69 (tilesFor c.bytes.length - b.tiles.length) then busDone (fillBulk c s) cls stOk 0 else busDone s cls stBusy 0)
    else
      let t := bulkTarget b.kind
      let k := bulkSlot s b.kind
      let s := setImageSlot s t k { writeChunk (imageSlot s.nvm t k) b.bytes.length d with verified := none }
      busDone (s.onBus fun x => { x with bulk := some c }) cls stOk 0

/-- BULK_CHUNK (R451, R474): an image's chunk waits during a brownout warning. -/
def bulkChunkOp (cls : BusClass) (bs : List Byte) (s : State) : State :=
  let d := bs.drop 4
  match s.bus.bulk with
  | none => busDone s cls stRange 0
  | some b =>
    let s := s.onBus fun x => { x with bulk := some { b with at_ := s.time.gtc } }
    if leAt bs 0 4 ≠ b.bytes.length ∨ b.total < b.bytes.length + d.length then busDone s cls stRange (w32 b.bytes.length)
    else if s.power.brownout ∧ b.kind ≠ 0 then s.onBus fun x => { x with held := some (.chunk d) }
    else takeChunk cls d s

/-- BULK_CHUNK: 5 to 244 bytes. -/
def execBulkChunk (cls : BusClass) (w : BusWrite) (s : State) : Host.Outcome State Fault Refusal :=
  busAction cls 0x41 w (fun bs => decide (5 ≤ bs.length ∧ bs.length ≤ 244)) (bulkChunkOp cls) s

/-- An image complete in its slot verified (R415, R416, R474): a Rind image restarts the boot chain (R419), a Paste image starts Paste (R420). -/
def commitImage (cls : BusClass) (kind : Nat) (s : State) : State :=
  let t := bulkTarget kind
  let k := bulkSlot s kind
  let sl := imageSlot s.nvm t k
  match imageCheck s t sl with
  | some c => busDone s cls stAuth (w32 c)
  | none =>
    let i := verifiedImage sl
    let s := busDone (setImageSlot s t k { sl with verified := some i }) cls stOk (w32 i.version)
    if kind = 1 then s.onPower fun p => { p with booting := true } else applySelectedRecipe (startPaste k true s)

/-- A complete session committed (R474): a profile as PROFILE_LOAD would take it, an image verified. -/
def commitBulk (cls : BusClass) (b : Bulk) (s : State) : State :=
  if b.kind = 0 then
    let last := b.tiles.filter fun r => (tagOf s r.1).state == .filling
    let s := last.foldl (fun s r => closeRef s r (some (slice b.bytes (b.bytes.length / 512 * 512) 512))) s
    let id := s.link.nextFlight
    let s := addFlight s (.bus cls) .profileLoad { ownSub 0 0 0 [] with bufAddr := 1, bufLen := b.bytes.length, data := b.bytes } .waiting
    (s.onBus fun x => { x with bulk := none }).onLink fun l =>
      { l with flights := l.flights.map fun g => if g.id = id then { g with tiles := b.tiles } else g }
  else commitImage cls b.kind (endBulk s)

/-- The opcode whose part a commit plays (R419, R432, R474): a profile load, or a firmware load; of ROM recovery, none. -/
def bulkState (s : State) (kind : Nat) : Option Nat :=
  match kind with
  | 0 => check6 s .profileLoad
  | 2 => check6 s .fwStage
  | _ => none

/-- BULK_COMMIT (R432, R474). -/
def bulkCommitOp (cls : BusClass) (s : State) : State :=
  match s.bus.bulk with
  | none => busDone s cls stRange 0
  | some b =>
    if b.bytes.length ≠ b.total then busDone s cls stRange 0
    else if bulkRefused s b.kind then busDone s cls stState 0
    else if (bulkState s b.kind).isSome then busDone s cls ((bulkState s b.kind).getD stState) 0
    else if s.power.brownout ∧ b.kind ≠ 0 then s.onBus fun x => { x with held := some .commit }
    else commitBulk cls b s

/-- BULK_COMMIT: the value byte is the session's KIND. -/
def execBulkCommit (cls : BusClass) (w : BusWrite) (s : State) : Host.Outcome State Fault Refusal :=
  busAction cls 0x42 w (fun bs => match s.bus.bulk with | some b => ofValue b.kind bs | none => bs.length == 1 && decide (byteAt bs 0 ≤ 2))
    (fun _ s => bulkCommitOp cls s) s

/-- BULK_SESSION_TIMEOUT: 60 s without a chunk (R474). -/
def bulkTimeoutOp (s : State) : State :=
  match s.bus.bulk with
  | some b => if b.at_ + 24000000000 ≤ s.time.gtc then endBulk s else s
  | none => s

/-- BULK_SESSION_TIMEOUT. -/
def execBulkSessionTimeout (s : State) : Host.Outcome State Fault Refusal := if clocked s then .next (afterRow (bulkTimeoutOp s)) else .next s

/-- An action command that waited for the end of a brownout warning goes on (R451, R475). -/
def resumeBus (s : State) : State :=
  let h := s.bus.held
  let s := s.onBus fun b => { b with held := none }
  match h with
  | none => s
  | some (.settings v t) => if s.fw.rind = .running then busDone (writeSettings v t s) .management stOk 0 else busDone s .management stBusy 0
  | some (.chunk d) => takeChunk .management d s
  | some .commit => (match s.bus.bulk with | some b => commitBulk .management b s | none => busDone s .management stRange 0)

/-! ## Host Notify (R476 to R478) -/

/-- An attempt that was lost (R478): after the eighth the message is dropped, else a backoff of 1 ms to 8 ms in steps of 40 µs. -/
def lostNotify (s : State) : State :=
  let n := s.bus.attempts + 1
  if 8 ≤ n then
    raise (s.onBus fun b => { b with notifyDue := false, attempts := 0 }) 112 evNotifyDropped (w32 (statusWord s).toNat) (w32 n) 0
  else
    let d := draw s
    d.2.onBus fun b => { b with attempts := n, backoffUntil := s.time.gtc + (1000 + 40 * (d.1 % 176)) * 400 }

/-- HOST_NOTIFY: an attempt at a due message, after any backoff and while SDA is not stuck (R477 to R479). -/
def hostNotifyOp (o : NotifyOutcome) (s : State) : State :=
  if !s.bus.notifyDue ∨ s.time.gtc < s.bus.backoffUntil ∨ s.time.gtc < s.bus.hangUntil then s
  else match o with
    | .sent => s.onBus fun b =>
        { b with notifyDue := false, attempts := 0, notified := some (BitVec.ofNat 8 (2 * (64 + s.fw.addrCode % 16)), statusWord s) }
    | .lostArbitration | .nacked => lostNotify s

/-- HOST_NOTIFY. -/
def execHostNotify (outcome : NotifyOutcome) (s : State) : Host.Outcome State Fault Refusal :=
  if clocked s then .next (afterRow (hostNotifyOp outcome s)) else .next s

/-! ## Hangs of the bus (R461, R479 to R481) -/

/-- SDA still low after nine pulses (R479). -/
def busStuck (s : State) : State := raise (s.onBus fun b => { b with hangUntil := s.time.gtc + 40000000 }) 112 evBusStuck 0 0 0

/-- HANG_RECOVERY (R479): SDA still low after nine pulses, or SCL low for more than 35 ms, is BUS_STUCK. -/
def hangOp (l : BusLine) (s : State) : State :=
  if s.time.gtc < s.bus.hangUntil then s
  else match l with
    | .free => s
    | .sdaLow n => if n = 0 then s else if n ≤ 9 then answer .discarded s else busStuck s
    | .sdaStuck => busStuck s
    | .sclStuck => raise s 112 evBusStuck 1 0 0

/-- HANG_RECOVERY: SDA is freed by the pulses given; by none where it was free. -/
def execHangRecovery (line : BusLine) (s : State) : Host.Outcome State Fault Refusal :=
  if clocked s then .next (afterRow (hangOp line s)) else .next s

/-- SDA_RELEASE: the transaction is discarded (R461, R480). -/
def execSdaRelease (s : State) : Host.Outcome State Fault Refusal := if clocked s then .next (afterRow (answer .discarded s)) else .next s

/-- SCL_TIMEOUT: the transaction is discarded (R461, R481). -/
def execSclTimeout (s : State) : Host.Outcome State Fault Refusal := if clocked s then .next (afterRow (answer .discarded s)) else .next s

/-- SMB_UNSERVED_COMMAND (R458, R468): the code is NACKed; a code that is served at this moment changes nothing. -/
def execSmbUnservedCommand (cls : BusClass) (code : Byte) (s : State) : Host.Outcome State Fault Refusal :=
  busRow cls code.toNat (isAction code.toNat) id s

end Sys2Proof.Machine
end

