-- ==== Sys2Proof/Machine/HostCommands.lean ====
section
/-!
DEFINITION. Machine/HostCommands.lean: the meanings of the 32 host commands (R343): each is a submission that Paste checks under R338 and then starts; the effects
stand with the `run` definition of each opcode.
-/

namespace Sys2Proof.Machine

/-- NOP (R343). -/
def execNop (sub : Submission) (s : State) : Host.Outcome State Fault Refusal := hostCommand .nop sub s

/-- FENCE (R347). -/
def execFence (sub : Submission) (s : State) : Host.Outcome State Fault Refusal := hostCommand .fence sub s

/-- ABORT (R342). -/
def execAbort (sub : Submission) (s : State) : Host.Outcome State Fault Refusal := hostCommand .abort sub s

/-- UNIT_ON (R39, R55, R138, R348). -/
def execUnitOn (sub : Submission) (s : State) : Host.Outcome State Fault Refusal := hostCommand .unitOn sub s

/-- UNIT_OFF (R39, R40, R57, R59, R348). -/
def execUnitOff (sub : Submission) (s : State) : Host.Outcome State Fault Refusal := hostCommand .unitOff sub s

/-- UNIT_PWM (R98, R99, R351). -/
def execUnitPwm (sub : Submission) (s : State) : Host.Outcome State Fault Refusal := hostCommand .unitPwm sub s

/-- UNIT_RESET_LOCK (R41, R183, R349). -/
def execUnitResetLock (sub : Submission) (s : State) : Host.Outcome State Fault Refusal := hostCommand .unitResetLock sub s

/-- UNIT_RETIRE (R188 to R191, R350). -/
def execUnitRetire (sub : Submission) (s : State) : Host.Outcome State Fault Refusal := hostCommand .unitRetire sub s

/-- UNIT_RESTORE (R192, R350). -/
def execUnitRestore (sub : Submission) (s : State) : Host.Outcome State Fault Refusal := hostCommand .unitRestore sub s

/-- UNIT_CONFIG_READ (R352, R353). -/
def execUnitConfigRead (sub : Submission) (s : State) : Host.Outcome State Fault Refusal := hostCommand .unitConfigRead sub s

/-- UNIT_CONFIG_WRITE (R354, R355). -/
def execUnitConfigWrite (sub : Submission) (s : State) : Host.Outcome State Fault Refusal := hostCommand .unitConfigWrite sub s

/-- HOOP_FORM (R44, R356). -/
def execHoopForm (sub : Submission) (s : State) : Host.Outcome State Fault Refusal := hostCommand .hoopForm sub s

/-- HOOP_EDIT (R44, R356). -/
def execHoopEdit (sub : Submission) (s : State) : Host.Outcome State Fault Refusal := hostCommand .hoopEdit sub s

/-- HOOP_DISSOLVE (R357). -/
def execHoopDissolve (sub : Submission) (s : State) : Host.Outcome State Fault Refusal := hostCommand .hoopDissolve sub s

/-- TELEM_SNAPSHOT (R250, R258, R358). -/
def execTelemSnapshot (sub : Submission) (s : State) : Host.Outcome State Fault Refusal := hostCommand .telemSnapshot sub s

/-- STREAM_START (R359). -/
def execStreamStart (sub : Submission) (s : State) : Host.Outcome State Fault Refusal := hostCommand .streamStart sub s

/-- STREAM_STOP (R360). -/
def execStreamStop (sub : Submission) (s : State) : Host.Outcome State Fault Refusal := hostCommand .streamStop sub s

/-- CAPTURE_ARM (R262, R361). -/
def execCaptureArm (sub : Submission) (s : State) : Host.Outcome State Fault Refusal := hostCommand .captureArm sub s

/-- CAPTURE_READ (R264, R362). -/
def execCaptureRead (sub : Submission) (s : State) : Host.Outcome State Fault Refusal := hostCommand .captureRead sub s

/-- SEQ_DEFINE (R231, R251, R363). -/
def execSeqDefine (sub : Submission) (s : State) : Host.Outcome State Fault Refusal := hostCommand .seqDefine sub s

/-- SEQ_TRIGGER (R252, R363). -/
def execSeqTrigger (sub : Submission) (s : State) : Host.Outcome State Fault Refusal := hostCommand .seqTrigger sub s

/-- LOG_READ (R364). -/
def execLogRead (sub : Submission) (s : State) : Host.Outcome State Fault Refusal := hostCommand .logRead sub s

/-- LOG_CLEAR (R365). -/
def execLogClear (sub : Submission) (s : State) : Host.Outcome State Fault Refusal := hostCommand .logClear sub s

/-- PROFILE_LOAD (R165, R166, R366). -/
def execProfileLoad (sub : Submission) (s : State) : Host.Outcome State Fault Refusal := hostCommand .profileLoad sub s

/-- RECIPE_LOAD (R366, R423). -/
def execRecipeLoad (sub : Submission) (s : State) : Host.Outcome State Fault Refusal := hostCommand .recipeLoad sub s

/-- FW_STAGE (R367, R416). -/
def execFwStage (sub : Submission) (s : State) : Host.Outcome State Fault Refusal := hostCommand .fwStage sub s

/-- FW_ACTIVATE (R368, R427, R428). -/
def execFwActivate (sub : Submission) (s : State) : Host.Outcome State Fault Refusal := hostCommand .fwActivate sub s

/-- FW_ROLLBACK (R368). -/
def execFwRollback (sub : Submission) (s : State) : Host.Outcome State Fault Refusal := hostCommand .fwRollback sub s

/-- POWER_STATE (R369, R441, R442). -/
def execPowerState (sub : Submission) (s : State) : Host.Outcome State Fault Refusal := hostCommand .powerState sub s

/-- TIME_SYNC (R370). -/
def execTimeSync (sub : Submission) (s : State) : Host.Outcome State Fault Refusal := hostCommand .timeSync sub s

/-- CAL_RUN (R371). -/
def execCalRun (sub : Submission) (s : State) : Host.Outcome State Fault Refusal := hostCommand .calRun sub s

/-- DIAG_RUN (R372). -/
def execDiagRun (sub : Submission) (s : State) : Host.Outcome State Fault Refusal := hostCommand .diagRun sub s

end Sys2Proof.Machine
end

