-- ==== Sys2Proof/Machine/Power.lean ====
section
/-!
DEFINITION. Machine/Power.lean: clock failure, the brownout warning, entry to PARK and the wake (R18, R141, R142, R156, R284, R304, R388, R400, R404, R438 to
R447, R451 to R453).
-/

namespace Sys2Proof.Machine

/-! ## Clock failure (R18, R91, R438) -/

/-- The clock monitor's TRIP on one leaf: the FAST sink, and a latch that only a reset clears (R18, R91). -/
def clockTrip (s : State) (u : Nat) : State :=
  onLeaf s u fun l => { l with tripLatch := true, tripClock := true, gate := sinkMode (leafKind u) l.env.clamp true l.gate, gateR := false }

/-- CLOCK_FAIL: every leaf of a shed class other than 0 turned off, and the flag of the always-on domain. -/
def clockFailOp (s : State) : State :=
  if s.power.clockFail then s
  else
    let s := (leafNums.filter fun u => (leafOf s u).env.shedClass != 0).foldl clockTrip s
    s.onPower fun p => { p with clockFail := true, clockFlag := true }

/-- CLOCK_FAIL (R18, R438): in RUN and DOZE, and at a wake from PARK whose PLL does not lock, which then goes no further. -/
def execClockFail (s : State) : Host.Outcome State Fault Refusal := if s.power.booting then .next s else .next (clockFailOp s)

/-! ## Brownout (R404, R451 to R453) -/

/-- The cell of SUP1 (R265). -/
abbrev sup1 : Nat := 341

/-- SUP1's output changes: the level, and its edge flag and counter (R276). -/
def sup1Edge (s : State) (low : Bool) : State := supplyEdge s sup1 low

/-- The open record and an operating-counter slot, written by Rind at the start of a warning and at PARK entry (R400, R404, R442). -/
def saveCounters (s : State) : State := if rindCommits s then writeCounters (commitOpen s) else s

/-- BROWNOUT_WARNING (R451). -/
def brownoutOp (s : State) : State :=
  if s.power.brownout then s
  else relink (latchBus ((saveCounters (sup1Edge s true)).onPower fun p => { p with brownout := true }) 5)

/-- A value as an event's 32-bit parameter; for one that 32 bits do not hold the manual states nothing, and the parameter is free (log entry 91). -/
def fits32 (n : Nat) (s : State) : Word32 × State := if n < 4294967296 then (w32 n, s) else let d := draw s; (w32 d.1, d.2)

/-- BROWNOUT_RECOVERY (R452): what waited resumes, and the warning is recorded. -/
def recoveryOp (minVsup duration : Nat) (s : State) : State :=
  if !s.power.brownout then s
  else
    let s := (clearEdge (sup1Edge s false) (edgeIndex sup1)).onPower fun p => { p with brownout := false }
    let s := relink s
    let s := if rindCommits s then commitIfDue (flushStaged s) else s
    let s := resumeBus s
    let v := fits32 minVsup s
    let t := fits32 duration v.2
    raise t.2 72 evBrownoutWarn v.1 t.1 0

/-- SUP1 while Rind does not read it: the edge flags and the counter keep recording in PARK and while CK_MAIN is stopped (R276, R453). -/
def sup1Row (low : Bool) (op : State → State) (s : State) : Host.Outcome State Fault Refusal :=
  if clocked s then .next (afterRow (op s))
  else if s.power.booting then .next s
  else .next (sup1Edge s low)

/-- BROWNOUT_WARNING (R451, R453). -/
def execBrownoutWarning (s : State) : Host.Outcome State Fault Refusal := sup1Row true brownoutOp s

/-- BROWNOUT_RECOVERY (R452): the minimum VSUP in mV, and the time SUP1 was asserted in µs. -/
def execBrownoutRecovery (minVsup duration : Nat) (s : State) : Host.Outcome State Fault Refusal := sup1Row false (recoveryOp minVsup duration) s

/-! ## PARK entry (R304, R439, R442, R443) -/

/-- A unit at PARK entry (R369, R439, R443, R457): a park-kept one stays, the gates of its members at ENHANCE but for drivers that a latch holds, with its retry
cancelled if it waits in COOL; any other that waits in COOL is OFF. -/
def parkLeaf (s : State) (u : Nat) : State :=
  let v := vleaf s u
  if (leafOf s (slotOf s u)).env.parkKeep then
    (if v.st = .cool then onV s u fun l => { l with retryCancelled := true }
    else if v.pwm.running ∧ v.st.conducting then
      onV (onLeaf s u fun l => { l with pwm := { l.pwm with running := false } }) u fun l => { l with gate := askGate l .enhance }
    else s)
  else if v.st = .cool then onV s u fun l => { l with st := .off, sub := 0, retryCancelled := false }
  else s

/-- PGOUT in PARK (R443): the pin of a park-kept unit holds its level, any other is low. -/
def parkPgout (s : State) : State :=
  s.onPress fun p => { p with pgout := ((pgoutUnits s).zip p.pgout).map fun x => x.2 && decide (x.1 < 71) && (leafOf s (slotOf s x.1)).env.parkKeep }

/-- Streams stop with cause 3, captures empty, no sequence is defined, the banks and their buffers are off (R240, R251, R262, R304). -/
def parkMeasure (s : State) : State :=
  let s := (List.range 8).foldl (fun s r => stopStream s r 3) s
  let s := s.onMeas fun m => { m with captures := [], nodes := m.nodes.map fun p => (p.1, { p.2 with dual := none }), seqs := [], history := [], histAt := none, calRun := [] }
  [0, 1].foldl (fun s b => onBank s b fun k => { k with refOn := false, refReady := false, released := false, rewake := false, urgentPress := [], urgent := [], repairing := none }) s

/-- No reference to the tiles that lose their power survives (R304). -/
def parkVat (s : State) : State :=
  let s := s.onLink fun l => { l with xfers := [], prgs := [], flights := l.flights.map fun f => { f with tiles := [] } }
  let s := s.onBus fun b => { b with bulk := none }
  s.onVat fun v => { v with held := v.held.map fun p => (p.1, p.2.filter (·.1 < 512)) }

/-- The pump of a bank runs in PARK (R439, R442): a park-kept unit that stands on the bank is ON. -/
def pumpKept (s : State) (b : Nat) : Bool :=
  (List.range 71).any fun u => (u / 16 == b || (u == 70 && (holdParams s).bank == b)) && (leafOf s (slotOf s u)).env.parkKeep && (vleaf s u).st.conducting

/-- The pumps in PARK, and at a wake all of them (R439, R442). -/
def setPumps (on : State → Nat → Bool) (s : State) : State := [0, 1, 2, 3].foldl (fun s b => onPump s b fun p => { p with on := on s b }) s

/-- PME_TURN_OFF in park pending (R307, R442): the host has placed the function in D3hot. -/
def parkOp (s : State) : State :=
  if !s.power.parkPending ∨ !s.link.up then s
  else
    let s := raise (closeTick s) 77 evPowerState 2 0 0
    let s := setPumps pumpKept (parkPgout ((slots s).foldl parkLeaf s))
    let s := if s.fw.rind = .running then writeRetention true s else s
    let s := parkVat (parkMeasure (saveCounters s))
    let s := s.onLink fun l => { l with up := false, speed := 0, width := 0, allowAt := none, d3hot := true }
    let s := (s.onTime fun t => { t with dialogue := none }).onFw fun f =>
      { f with rind := if f.rind = .running then .parked else f.rind, paste := if f.paste = .down then .down else .stopped, selfCheckDue := false,
               handover := none, commitDue := false, restartDue := none }
    s.onPower fun p => { p with mode := .park, next := none, parkPending := false }

/-- PME_TURN_OFF (R442). -/
def execPmeTurnOff (s : State) : Host.Outcome State Fault Refusal := liveRow true parkOp s

/-! ## Models over a stretch of time (R155, R156) -/

/-- The unit whose models a leaf's are part of conducted at PARK entry, by the leaves as they stood there. -/
def keptOn (s : State) (leaves : Tbl Leaf) (u : Nat) : Bool :=
  (leafOf s (slotOf s u)).env.parkKeep && (groupOf s u).any fun m => (Tbl.get {} leaves m).st.conducting

/-- The current in mA with which a unit's wire is advanced (R156): I_RATED for a park-kept unit that was ON at PARK entry, else none; a retired member of a
parallel hoop carries none. -/
def advanceMa (s : State) (leaves : Tbl Leaf) (u : Nat) : Nat :=
  if keptOn s leaves u ∧ (slotOf s u = u ∨ (leafOf s u).st ≠ .retired) then (leafOf s (slotOf s u)).env.iRated else 0

/-- The dissipation in W with which a leaf's MOSFET is advanced (R156): its share of that current among the hoop's non-retired members, at the R_DS(on) of
TJ_MAX. -/
def advanceWatt (s : State) (leaves : Tbl Leaf) (u : Nat) : Rat :=
  let n := (liveOf s (slotOf s u)).length
  if n = 0 ∨ ¬ (liveOf s (slotOf s u)).contains u then 0
  else fetPower (leafOf s u).env (sixteenth (leafOf s u).env.tjMax) 0 ((advanceMa s leaves u : Rat) / (n : Rat))

/-- A leaf's models advanced over some µs in closed form from the values it holds (R147, R156), with the leaves as they stood at PARK entry and the higher of
the temperatures at entry, given, and now. -/
def advanceModels (leaves : Tbl Leaf) (amb case_ : Int) (us : Nat) (s : State) (u : Nat) : State :=
  let e := (leafOf s u).env
  let i : Rat := (advanceMa s leaves u : Rat) / 1000
  let p := advanceWatt s leaves u
  let ta := maxI amb (ambientOf s u)
  let c := maxI case_ (caseOf s u)
  let own := decide (slotOf s u = u) || (leafOf s u).st == .retired
  onLeaf s u fun l =>
    let g := l.led
    let w := if hasWire e && own then wireAdvance e ta g.tc g.ti (i * i) ((us : Rat) / 1000000) else (g.tc, g.ti)
    let f (th : Int) (rth tau : Nat) : Int := if hasFet e then fetAdvance th p rth tau us else th
    let th1 := f g.th1 e.rth1 e.tau1
    let th2 := f g.th2 e.rth2 e.tau2
    let th3 := f g.th3 e.rth3 e.tau3
    let clear := decide (e.ltClear * 1000 ≤ us) && !(leafOf s (slotOf s u)).env.parkKeep
    { l with led := { g with tc := w.1, ti := w.2, th1 := th1, th2 := th2, th3 := th3, tj := c + th1 + th2 + th3,
                             lt := if clear then 0 else g.lt, ltRunning := g.ltRunning && !clear, ltQuiet := if clear then 0 else g.ltQuiet } }

/-! ## Wake (R141, R284, R304, R388, R445 to R447, R453) -/

/-- GTC counts of some periods of the low-power oscillator: 12,207.03125 each, rounded down (R388); and the same in µs. -/
def periodGtc (n : Nat) : Nat := n * 390625 / 32
def periodUs (n : Nat) : Nat := n * 15625 / 512

/-- Time after PARK (R388, R398, R516): the GTC resumes, the trim is at its rate value, SYNCED clears; the refresh of the non-volatile memories counts the time
in RUN and DOZE alone. -/
def resumeTime (periods : Nat) (s : State) : State :=
  let n := periodGtc periods
  let was := s.time.synced
  let o := s.power.opsec
  let s := (countOpsec s n).onPower fun p => { p with refreshAt := p.refreshAt + (p.opsec - o) }
  let s := s.onTime fun t =>
    { t with gtc := (t.gtc + n) % 18446744073709551616, synced := false, trim := t.rateTrim, trimAtLimit := t.rateTrim.natAbs == trimRange s,
             slewLeft := 0, slewing := false }
  if was then raise s 79 evTimeUnsync 0 0 0 else s

/-- The Vat outside tiles 0 to 511 starts again (R284, R290, R304): FREE with generation 1, and RETIRED where a tile was retired. -/
def wakeVat (s : State) : State :=
  s.onVat fun v =>
    { v with tags := (v.tags.filter fun p => decide (p.1 < 512) || p.2.state == .retired).map fun p =>
               if p.1 < 512 then p else (p.1, { state := .retired }),
             held := v.held.map fun p => (p.1, p.2.filter (·.1 < 512)), toTest := v.toTest.filter (· < 512), bad := v.bad.filter (· < 512),
             mem := v.mem.filter fun p => decide (p.1 < 262144) }

/-- The cells that are powered in PARK (R269). -/
def parkPowered (s : State) (c : Nat) : Bool := decide (cellMode s .park c ≠ .off)

/-- The cells that were off in PARK start at INIT (R277); their codes stand. -/
def wakeCells (s : State) : State :=
  let start (p : Nat × Cell) : Nat × Cell :=
    if parkPowered s p.1 then p
    else (p.1, { (if wmOff s p.1 then {} else initCell s p.1) with code := p.2.code, dacFail := p.2.dacFail })
  s.onCmp fun m => { m with cells := m.cells.map start }

/-- The buffers are enabled at the start of the wake, and the first tick comes after REF_READY of every working bank that owns a current node of a park-kept
unit (R240, R446): 250 µs of it have passed then. A bank whose check of node 233 stays outside its tolerance for 1 ms has failed instead (R242). -/
def wakeRefs (refs : List Nat) (s : State) : State :=
  [0, 1].foldl (fun s b =>
    let waits := !(mbank s b).bankFail && leafNums.any fun u => (leafOf s (slotOf s u)).env.parkKeep && nodeBank (iNode u) == b
    let bad := waits && refs.contains b
    let s := onBank s b fun k => { k with refOn := true, refReady := waits && !bad, refAt := s.time.gtc - (if bad then 400000 else 100000), refFail := k.refFail || bad }
    if bad then failBank b 0 s else s) s

/-- A park-kept unit whose trip cell has latched (R141). -/
def wakeTrip (s : State) (u : Nat) : State :=
  if !cellPowered s u then s else if u < 64 then tripCellFireOp u s else if u < 68 then feedShortOp u s else s

/-- The fault timer of a unit whose limit flag is set: 2,000 µs at the end of the first tick (R141). -/
def wakeLimit (s : State) (u : Nat) : State := onV s u fun l => { l with faultT := 1992 * 8 }

/-- Which loop had the gate of each limited unit is not told by its flag: a free choice. -/
def wakeLoops : List Nat → State → List (Nat × Bool) × State
  | [], s => ([], s)
  | u :: us, s =>
    let d := draw s
    let r := wakeLoops us d.2
    ((u, d.1 % 2 == 0) :: r.1, r.2)

/-- Pulse generators of park-kept units run again. -/
def wakePwm (s : State) (u : Nat) : State :=
  onLeaf s u fun l => if l.sub = 1 ∧ l.st.conducting ∧ l.pwm.set then { l with pwm := { l.pwm with running := true } } else l

/-- SUP1's edge flags read at the wake (R276, R453): the warning begins there if SUP1 is still asserted. -/
def wakeSup1 (s : State) : State :=
  let e : Edge := Tbl.get {} s.cmp.edges (edgeIndex sup1)
  let s := s.onPower fun p => { p with brownout := if e.rise || e.fall then (cellOf s sup1).level else p.brownout }
  if e.rise || e.fall then raise (clearEdge s (edgeIndex sup1)) 72 evBrownoutWarn 0 0xFFFFFFFF#32 0 else s

/-- Paste loaded again from NVM-A and started (R304, R446). -/
def wakePaste (s : State) : State :=
  if s.fw.rind ≠ .running ∨ s.fw.paste = .down then s
  else if pasteUsable s s.fw.pasteSlot then applySelectedRecipe (startPaste s.fw.pasteSlot false s)
  else if pasteUsable s (1 - s.fw.pasteSlot) then applySelectedRecipe (startPaste (1 - s.fw.pasteSlot) false s)
  else pasteDown s

/-- The models of a leaf at a wake (R155, R156): restored from the record, with the leaves as they stood at PARK entry. -/
def wakeModels (was : State) (us : Nat) (s : State) (u : Nat) : State :=
  match intactRecord s with
  | some r => advanceModels was.press.leaves (ambientOf was u) (caseOf was u) us (takeRecord r s u) u
  | none => initModels s u

/-- A retry delay runs on through PARK (R128). -/
def wakeRetry (us : Nat) (s : State) (u : Nat) : State :=
  let v := vleaf s u
  onLeaf s u fun l => if v.st = .cool then { l with retryUs := l.retryUs - us } else l

/-- The cells that are powered in PARK follow their inputs (R269, R281). -/
def parkCells (x : WakeInputs) (s : State) : State := x.cells.foldl (fun s c => compareCell (seeInput s c.1 c.2) c.1) s

/-- A window monitor wakes the device (R281, R445): WM_WAKE is set, and one of its enabled cells stands asserted or has latched. -/
def monitorWakes (s : State) (k : Nat) : Bool :=
  (wmOf s k).wake && [276 + 2 * k, 277 + 2 * k].any fun c => wmEnabled s c && cellOut (cellOf s c)

/-- A park-kept unit wakes the device (R141, R445): its trip cell has latched, or its limit flag is set. -/
def unitWakes (s : State) (x : WakeInputs) (u : Nat) : Bool :=
  (leafOf s (slotOf s u)).env.parkKeep && (x.trips.contains u || x.limits.contains u || (vleaf s u).tripLatch)

/-- The wake timer is on and has run out (R444, R445): it counts the seconds since PARK entry. -/
def timerDue (s : State) (x : WakeInputs) : Bool := s.nvm.wakeTimer != 0 && decide (s.nvm.wakeTimer * 32768 ≤ x.periods)

/-- What the wake's record names (R445): of several sources present the one with the lowest code, where the device's own registers show it. -/
def wakeRecorded (x : WakeInputs) (s : State) : Nat × Nat :=
  let mons := if 4 < x.code then (List.range 32).filter (monitorWakes s) else []
  let units := if 5 < x.code then leafNums.filter (unitWakes s x) else []
  match mons, units with
  | k :: _, _ => (4, k)
  | [], u :: _ => (5, u)
  | [], [] => if 6 < x.code ∧ timerDue s x then (6, 0) else (x.code, x.detail)

/-- WAKE, from its source to the first tick in DOZE, its record, and the start of Paste (R446). -/
def wakeOp (x : WakeInputs) (s : State) : State :=
  let was := s
  let s := parkCells x s
  let src := wakeRecorded x s
  let limits := x.limits.filter fun u => (leafOf s (slotOf s u)).env.parkKeep
  let s := (x.trips.filter fun u => (leafOf s (slotOf s u)).env.parkKeep).foldl wakeTrip s
  let s := s.onFw fun f => { f with rind := if f.rind = .parked then .running else f.rind }
  let s := s.onPower fun p => { p with mode := .doze, wakeSource := src.1 }
  let s := setPumps (fun _ _ => true) (resumeTime x.periods (wakeVat s))
  let s := wakeRefs x.refs (wakeCells s)
  let s := leavePark (leafNums.foldl (wakeModels was (periodUs x.periods)) (readNtc x.ntc (readRetention s)))
  let s := leafNums.foldl (wakeRetry (periodUs x.periods)) s
  let s := limits.foldl wakeLimit (leafNums.foldl wakePwm (hostReset s))
  let lp := wakeLoops limits s
  let s := wakeSup1 lp.2
  let s := runTick { cells := [], fwd := [], loops := lp.1, srcLimit := [], pumps := [], mated := [] } s
  let s := raise s 77 evPowerState 1 (w32 (src.1 + 256 * src.2)) 0
  let s := if rindCommits s then writeCounters s else s
  let s := latchBus (s.onPower fun p => { p with wakeL := true }) 6
  (wakePaste s).onLink fun l => { l with allowAt := some s.time.gtc }

/-- A wake source is present (R445): those that the device's own registers show are, any other is as the row names it. -/
def wakePresent (x : WakeInputs) (s : State) : Bool :=
  match x.code with
  | 4 => decide (x.detail < 32) && monitorWakes (parkCells x s) x.detail
  | 5 => decide (x.detail < 71) && unitWakes (parkCells x s) x x.detail
  | 6 => x.detail == 0 && timerDue s x
  | 8 => decide (x.detail < 16)
  | c => decide (1 ≤ c ∧ c ≤ 9) && x.detail == 0

/-- WAKE (R438, R445, R446): in PARK, with the PLL able to lock; what is no source of R445 wakes nothing (log entry 74). -/
def execWake (inp : WakeInputs) (s : State) : Host.Outcome State Fault Refusal :=
  if s.power.mode = .park ∧ ¬ s.power.booting ∧ ¬ s.power.clockFail ∧ wakePresent inp s then .next (afterRow (wakeOp inp s)) else .next s

end Sys2Proof.Machine
end

