-- ==== Sys2Proof/Machine/Reset.lean ====
section
/-!
DEFINITION. Machine/Reset.lean: the resets of the device, its boot, and the boot-on set (R32, R41, R91, R155, R156, R167, R181, R183, R225, R226, R290, R393,
R399, R400, R403, R407, R409, R414, R418 to R420, R435, R437, R449, R454 to R457, R463, R484, R485).
-/

namespace Sys2Proof.Machine

/-! ## Resets (R454 to R457) -/

/-- NEXT_SEQ after a power-on reset (R404): one more than the highest SEQ of a valid record in the non-volatile stores. -/
def nextSeqOf (c : Cave) : Nat :=
  ((c.ring.map (·.2) ++ c.failsafe0.toList ++ c.failsafe).filter (·.valid)).foldl (fun m r => if m ≤ r.seq then r.seq + 1 else m) 1

/-- The Cave after a power-on reset (R401, R408, R457): its memories stand, staging is lost. -/
def caveAfterPower (c : Cave) : Cave :=
  { ring := c.ring, page := c.page, inPage := c.inPage, nextSeq := nextSeqOf c, failsafe0 := c.failsafe0, failsafe := c.failsafe, badPages := c.badPages,
    everVolatile := c.everVolatile, failRun := c.failRun, erases := c.erases }

/-- The Cave after RST_L (R401, R403): staging stands too. -/
def caveAfterRst (c : Cave) : Cave := { c with open_ := none, clearing := false, repeatWin := 1000, faultsDue := [] }

/-- The Vat after RST_L (R284, R290): tiles 0 to 511 stand, but for those that were retired beyond the list. -/
def vatAfterRst (n : Nvm) (v : Vat) : Vat :=
  let keep (p : Nat × Tag) : Bool := decide (p.1 < 512) && (p.2.state != .retired || n.retiredTiles.contains p.1)
  { mem := v.mem.filter fun p => decide (p.1 < 262144), tags := v.tags.filter keep, fails := v.fails, bad := v.bad.filter (· < 512),
    held := v.held.map fun p => (p.1, p.2.filter (·.1 < 512)), toTest := v.toTest.filter (· < 512), retained := v.retained, retentionHalf := v.retentionHalf }

/-- The leaves at a reset (R455): a channel, a feed or HOLD whose gate is not held off sinks it FAST, and GATE_SINK_DONE then ends it; every other register is at
its reset value. -/
def resetLeaves (s : State) : Tbl Leaf :=
  (leafNums.filter fun u => decide (u < 68 ∨ u = 70) && (leafOf s u).gate != .holdOff).map fun u => (u, { gate := .sinkFast })

/-- Every other register at its reset value, the device held before BOOT (R457); what stands outside it stays. -/
def resetCore (cause : Nat) (s : State) : State :=
  { nvm := s.nvm, draws := s.draws, pending := s.pending,
    press := { leaves := resetLeaves s, mated := s.press.mated.map fun p => (p.1, 0), xtripLow := s.press.xtripLow },
    link := { perst := s.link.perst, hostMem := s.link.hostMem },
    power := { resetCause := cause, clockFlag := s.power.clockFlag } }

/-- CHALLENGE renewed (R433). -/
def newNonce (s : State) : State :=
  let d := draw s
  d.2.onFw fun f => { f with nonce := d.1 % 18446744073709551616 }

/-- A power-on reset (R454, R457): the open record is committed first, where Rind can (R403). -/
def powerReset (cause : Nat) (s : State) : State :=
  let s := if s.power.booting then s else commitOpen s
  newNonce { resetCore cause s with cave := caveAfterPower s.cave }

/-- RST_L (R454, R457). -/
def rstReset (s : State) : State :=
  let s := stageOpen s
  let t := resetCore 2 s
  { t with
    cave := caveAfterRst s.cave, vat := vatAfterRst s.nvm s.vat,
    time := { t.time with subsec := s.time.subsec },
    fw := { t.fw with nonce := s.fw.nonce, debugRefusals := s.fw.debugRefusals },
    power := { t.power with opsec := s.power.opsec, cycle := s.power.cycle, brownout := s.power.brownout, ctrAt := s.power.ctrAt } }

/-- SUPPLY_RESET: SUP0, SUP2 or SUP3 (R453, R454). -/
def execSupplyReset (s : State) : Host.Outcome State Fault Refusal := .next (powerReset 1 s)

/-- POWER_ON_RESET: first power (R457); the always-on domain starts too, so its flag is clear and no pin is known. -/
def execPowerOnReset (s : State) : Host.Outcome State Fault Refusal :=
  let t := powerReset 0 s
  .next { t with press := {}, cmp := {}, link := { hostMem := t.link.hostMem }, power := { t.power with clockFlag := false } }

/-- RST_L: a pulse of 200 ns to 1 µs resets the device or is ignored, which is a free choice (R454). -/
def execRstL (widthNs : Nat) (s : State) : Host.Outcome State Fault Refusal :=
  if widthNs < 200 then .next s
  else if 1000 ≤ widthNs then .next (rstReset s)
  else
    let d := draw s
    if d.1 % 2 = 0 then .next d.2 else .next (rstReset d.2)

/-! ## Boot: Rind's image and the memories (R290, R409, R418, R419) -/

/-- A Rind slot that the mask ROM verifies (R415, R418): its image, against its key slot and RIND_FLOOR. -/
def rindImage (s : State) (k : Nat) : Option ImageInfo :=
  let sl := imageSlot s.nvm 1 k
  match sl.verified with
  | some i => if s.nvm.rindFloor ≤ i.version ∧ s.nvm.revokedBelow ≤ i.keySlot then some i else none
  | none => if (imageCheck s 1 sl).isNone then some (verifiedImage sl) else none

/-- The slot that boots: the selected one, else the other (R418). -/
def rindChoice (s : State) : Option Nat := [s.nvm.rindSel, 1 - s.nvm.rindSel].find? fun k => (rindImage s k).isSome

/-- The times mated that the always-on domain has counted, which the Press takes over (R133, R225). -/
def bootMated (l : List (Nat × Nat)) : Tbl Nat := l.foldl (fun t x => if x.1 < 16 then Tbl.put t x.1 (satN 5000 x.2) else t) []

/-- The straps and pins as sampled (R226, R435, R463): codes of 3 and 4 bits (log entry 74). The supply cells, asserted from power-up, have released, all but
SUP1 during a brownout warning (R276, R277, R418); the times mated are those of the always-on domain (R225). -/
def samplePins (x : BootInputs) (s : State) : State :=
  let s := s.onFw fun f => { f with clkRef := x.clkRef, strap0 := x.strap0 % 8, strap1 := x.strap1 % 8, addrCode := x.addrCode % 16 }
  let s := (if s.power.brownout then [340, 342, 343] else [340, 341, 342, 343]).foldl (fun s c => supplyEdge s c false) s
  (s.onPower fun p => { p with booting := false }).onPress fun p => { p with mated := bootMated x.mated }

/-- Both reference buffers on (R240). -/
def bootRefs (s : State) : State := [0, 1].foldl (fun s b => onBank s b fun k => { k with refOn := true, refAt := s.time.gtc }) s

/-- A regulator starts from its strap with the settings of R226; an open strap leaves it OFF. -/
def strapStart (s : State) (u : Nat) : State :=
  if (if u = 68 then s.fw.strap0 else s.fw.strap1) = 7 then s
  else
    let s := setSoft (setSoft (setSoft s u fRampRate 20) u fFaultTime 10000) u fRetryMax 15
    (startUnit u s).1

/-- The regulators from their straps (R226, R419). -/
def strapRegs (s : State) : State := [68, 69].foldl strapStart s

/-- The tiles of the list are RETIRED before any holder allocates (R284, R290). -/
def bootTiles (s : State) : State := s.nvm.retiredTiles.foldl (fun s t => setTag s t { tagOf s t with state := .retired, holder := 0, poison := false }) s

/-- The slices that calibration has found failed stay out of service (R245); with fewer than seven that work the bank is failed (R242). -/
def bootSlices (s : State) : State :=
  [(0, s.nvm.failedA), (1, s.nvm.failedB)].foldl (fun s x =>
    let s := onBank s x.1 fun k => { k with failed := x.2, outSlice := if x.2 = 0 then k.outSlice else 15 }
    if (workingSlices s x.1).length < 7 then failBank x.1 1 s else s) s

/-- Records whose CRC no longer matches are invalid (R396). -/
def spoilRecs (seqs : List Nat) (c : Cave) : Cave :=
  let mark (r : CaveRec) : CaveRec := if seqs.contains r.seq then { r with valid := false } else r
  { c with ring := c.ring.map (fun p => (p.1, mark p.2)), failsafe0 := c.failsafe0.map mark, failsafe := c.failsafe.map mark,
           volatileRing := c.volatileRing.map mark }

/-- A program that power has interrupted leaves a torn record, which its CRC gives away, in the place after the newest (R404). -/
def tornRec (c : Cave) : Cave :=
  { programRec c { seq := 0, source := 0, code := 0, opsec := 0, subsec := 0, cycle := 0, p0 := 0, p1 := 0, p2 := 0, rept := 0, valid := false } with
    nextSeq := c.nextSeq, failRun := c.failRun }

/-- A page that is neither erased nor holding a valid record is erased again at boot (R404). -/
def eraseAgain (c : Cave) : Cave :=
  let held (p : Nat) : Bool := c.ring.any fun x => x.1 == p && x.2.valid
  let ps := ((c.ring.map (·.1)).eraseDups.filter fun p => !held p && !c.badPages.contains p)
  { c with ring := c.ring.filter (fun x => !ps.contains x.1), inPage := if ps.contains c.page then 0 else c.inPage,
           erases := ps.foldl (fun t p => Tbl.put t p (Tbl.get 0 t p + 1)) c.erases }

/-- The Cave's memories as the boot finds them (R396, R404): the next SEQ follows the highest valid one, and what a program or an erase left half done is seen to. -/
def bootMemories (x : BootInputs) (s : State) : State :=
  let power : Bool := s.power.resetCause != 2
  s.onCave fun c =>
    let c := spoilRecs x.spoiled c
    if power then
      let c := eraseAgain (if x.torn then tornRec c else c)
      { c with nextSeq := nextSeqOf c }
    else c

/-- The records of a VOLATILE Cave committed with their own SEQ to the store of the new mode (R409). -/
def bootVolatile (s : State) : State :=
  s.onCave fun c =>
    if c.mode = .volatile then c
    else
      let n := c.nextSeq
      let rs := c.volatileRing
      { rs.foldl (fun c r => programRec { c with nextSeq := r.seq } r) { c with volatileRing := [] } with nextSeq := n }

/-- The Cave starts in the best mode that its memories pass (R409). -/
def bootMode (m : CaveMode) (s : State) : State :=
  let old := s.cave.mode
  bootVolatile (s.onCave fun c => { c with mode := m, everVolatile := c.everVolatile || (m == .volatile && old != .volatile) })

/-- A mode code of BOOT's memory test. -/
def caveModeOf (k : Nat) : CaveMode := if k = 0 then .normal else if k = 1 then .degraded else .volatile

/-- A change of mode at the boot, recorded in the new mode's store (R408). -/
def modeRecord (old : CaveMode) (s : State) : State :=
  if s.cave.mode = old then s else raise s 116 evCaveMode (w32 s.cave.mode.code) (w32 old.code) 0

/-- OPSEC and CYCLE restored; CYCLE advances at a power-on reset, and a counter slot is then written (R399, R400). -/
def bootCounters (s : State) : State :=
  let o := restoredOpsec s
  if s.power.resetCause = 2 then s.onPower fun p => { p with opsec := Nat.max p.opsec o }
  else
    let s := s.onPower fun p => { p with opsec := o, cycle := satN 16777215 (savedCycle s.nvm + 1) }
    writeCounters s

/-- POWER_UP, and CLOCK_FAIL from its flag (R18, R399, R410). -/
def bootRecords (s : State) : State :=
  let s := raise s 77 evPowerUp (w32 (ofB (s.power.resetCause == 2))) (w32 s.power.cycle) 0
  if s.power.clockFlag then raise (s.onPower fun p => { p with clockFlag := false }) 73 evClockFail 0 0 0 else s

/-! ## Boot: the profile and the lock records (R41, R167, R181, R183, R226, R393) -/

/-- A profile slot's bundle. -/
def profileBytes (n : Nvm) (k : Nat) : List Byte := if k = 0 then n.profile0 else n.profile1

/-- A profile slot passes checks 0x01 to 0x0A (R167). -/
def profilePasses (n : Nvm) (k : Nat) : Bool := let b := profileBytes n k; !b.isEmpty && (profileCheck n b b.length true).isNone

/-- The selected profile applied, else that of the other slot with its event; generations start at 1 (R32, R167). -/
def bootProfile (s : State) : State :=
  let k := s.nvm.profileSel
  let use (k : Nat) (s : State) : State := (applyProfile (parseProfile (profileBytes s.nvm k)) k s).onPress fun p => { p with gens := [] }
  if profilePasses s.nvm k then use k s
  else if profilePasses s.nvm (1 - k) then
    let s := use (1 - k) s
    raise s 117 evProfileSlotFallback (w32 (1 - k)) (w32 (s.fw.profile.elim 0 (·.version))) 0
  else s

/-- A lock record applied to its unit (R41, R181, R183): the verdict and the escalation. -/
def bootVerdict (s : State) (r : LockRec) : State :=
  if r.verdict = 0 then s
  else
    let s := onLeaf s r.unit fun l =>
      { l with diag := { l.diag with verdict := r.verdict, uncontrollable := r.verdict == 1, damaged := (parallelOf s r.unit).isSome, recorded := true,
                                     esc := r.esc } }
    if r.esc = 2 then s.onPress fun p => { p with feedHolds := p.feedHolds.filter (· != r.unit) ++ [r.unit] } else s

/-- A retirement restored (R181, R192). -/
def bootRetired (s : State) (r : LockRec) : State :=
  match r.kind with
  | .retired | .retiredDamaged => onLeaf (bootVerdict s r) r.unit fun l => { l with st := .retired, sub := 0 }
  | _ => s

/-- A DAMAGE lock or a member's damage restored (R41, R181). -/
def bootLock (s : State) (r : LockRec) : State :=
  match r.kind with
  | .damageLock => onV (bootVerdict s r) (slotOf s r.unit) fun l => { l with st := .lock, sub := 1 }
  | .memberDamaged => bootVerdict s r
  | _ => s

/-- The latest record of each unit applied, retirements first, and the envelopes of hoops with retired members rescaled (R181, R189). -/
def bootLocks (s : State) : State :=
  let rs := leafNums.filterMap (latestLock s.nvm)
  let s := rs.foldl bootLock (rs.foldl bootRetired s)
  let s := (s.press.hoops.filter fun x => x.2.parallel && x.2.members.any fun m => (leafOf s m).st == .retired).foldl (fun s x => rescale s x.2) s
  leafNums.foldl refreshCodes s

/-! ## Boot: the models (R155, R156) -/

/-- The FET stages of a unit whose record shows an open episode raised so that T_j is TJ_MAX (R155); how the rise falls on the stages is a free choice. -/
def raiseOpen (was : Bool) (s : State) (u : Nat) : State :=
  let l := leafOf s u
  let d := (sixteenth l.env.tjMax - l.led.tj).toNat
  if !was ∨ d = 0 then s
  else
    let a := draw s
    let b := draw a.2
    let x := a.1 % (d + 1)
    let y := b.1 % (d - x + 1)
    onLeaf b.2 u fun l => { l with led := { l.led with th1 := l.led.th1 + x, th2 := l.led.th2 + y, th3 := l.led.th3 + (d - x - y : Nat),
                                                       tj := l.led.tj + d } }

/-- The models of a leaf restored from an intact record and advanced (R155, R156): with I_RATED where the record was written at PARK entry. T_a and T_case at
entry are not in the record: those at the boot stand alone (log entry 92). An open episode is the unit's, and every member's stages are set for it. -/
def restoreModels (r : RetentionRec) (us : Nat) (s : State) (u : Nat) : State :=
  let was := if r.park then r.leaves else []
  raiseOpen (Tbl.get {} r.leaves (slotOf s u)).led.evOpen (advanceModels was (ambientOf s u) (caseOf s u) us (takeRecord r s u) u) u

/-- After a clock failure: node by node the higher of the power-on and the restored value, the ledger empty (R155). -/
def higherModels (r : RetentionRec) (us : Nat) (s : State) (u : Nat) : State :=
  let a := (leafOf (initModels s u) u).led
  onLeaf (restoreModels r us s u) u fun l =>
    let g := l.led
    let th1 := maxI a.th1 g.th1
    let th2 := maxI a.th2 g.th2
    let th3 := maxI a.th3 g.th3
    { l with led := { g with tc := maxI a.tc g.tc, ti := maxI a.ti g.ti, th1 := th1, th2 := th2, th3 := th3,
                             tj := g.tj - g.th1 - g.th2 - g.th3 + th1 + th2 + th3, lt := 0, ltRunning := false, ltQuiet := 0 } }

/-- The models at the start (R155): after RST_L from an intact record, else the power-on values. -/
def bootModels (elapsed : Option Nat) (clock : Bool) (s : State) : State :=
  let s := if s.power.resetCause = 2 ∧ elapsed.isSome then readRetention s else s
  let how : State → Nat → State :=
    match elapsed, intactRecord s with
    | some us, some r => if s.power.resetCause = 2 then (if clock then higherModels r us else restoreModels r us) else initModels
    | _, _ => initModels
  leavePark (leafNums.foldl how s)

/-! ## Boot: the boot-on set, Paste (R225, R414, R418, R420) -/

/-- A unit of the boot-on set enters ARM. -/
def bootStart (s : State) (u : Nat) : State :=
  if (leafOf s u).env.bootOn then onLeaf (startUnit u s).1 u fun l => { l with bootDone := true } else s

/-- Step 2 of R225: the regulators and feeds with BOOT_ON, or the regulators from their straps without a profile. -/
def bootOnSet (s : State) : State := if s.fw.profile.isSome then [68, 69, 64, 65, 66, 67].foldl bootStart s else strapRegs s

/-- A Rind image where Paste starts (R412, R414, R418): its revocations, once for all at the first time; for an image selected for the first time its floor and
FW_ACTIVATED. -/
def bootRindFirst (k : Nat) (i : ImageInfo) (s : State) : State :=
  let s := s.onNvm fun n => { n with revokedBelow := if i.revokeBelow then Nat.max n.revokedBelow i.keySlot else n.revokedBelow }
  if k ≠ s.nvm.rindSel ∨ !(imageSlot s.nvm 1 k).fresh then s
  else
    let s := setImageSlot s 1 k { imageSlot s.nvm 1 k with fresh := false }
    let s := s.onNvm fun n => { n with rindFloor := Nat.max n.rindFloor i.minVersion }
    raise s 117 evFwActivated 1 (w32 i.version) 0

/-- Steps 3 and 4 of R418: Paste from its selected slot, else the other; down where neither can be loaded. -/
def bootPaste (runs : Bool) (s : State) : State :=
  let s := selectRegions s
  match [s.nvm.pasteSel, 1 - s.nvm.pasteSel].find? (pasteUsable s) with
  | none => pasteDown s
  | some k =>
    let s := applySelectedRecipe (startPaste k true s)
    if runs then s.onLink fun l => { l with allowAt := some s.time.gtc }
    else (s.onFw fun f => { f with paste := .stopped }).onLink fun l => { l with allowDue := true }

/-- Rind's working tiles, which never close (R288, R292). -/
def takeWorking (s : State) : State :=
  (freeIn s (regionOf s.vat 1)).foldl (fun s t => fillTile s 1 t) s

/-- Rind's part of the boot. -/
def bootRind (x : BootInputs) (k : Nat) (i : ImageInfo) (s : State) : State :=
  let old := s.cave.mode
  let clock := s.power.clockFlag
  let s := s.onFw fun f => { f with rind := .running, rindSlot := k }
  let s := bootSlices (takeWorking (bootTiles s))
  let s := bootMode (caveModeOf x.caveMode) (bootMemories x s)
  let s := countOpsec (bootCounters s) (periodGtc x.periods)
  let s := if rindCommits s then flushStaged s else s
  let s := bootRecords (modeRecord old s)
  let s := [340, 341, 342, 343].foldl refreshCode (bootProfile s)
  let s := bootModels x.elapsed clock (readNtc x.ntc (bootLocks s))
  let s := bootOnSet s
  bootPaste x.pasteRuns (bootRindFirst k i s)

/-- BOOT (R418): the mask ROM's choice, Rind's part, or ROM recovery (R419). -/
def bootOp (x : BootInputs) (s : State) : State :=
  let s := bootRefs (samplePins x s)
  match rindChoice s with
  | some k => (match rindImage s k with | some i => bootRind x k i s | none => s)
  | none => strapRegs (s.onFw fun f => { f with rind := .absent })

/-- BOOT: not while REFCLK is awaited (R437). -/
def execBoot (inp : BootInputs) (s : State) : Host.Outcome State Fault Refusal :=
  if s.power.booting ∧ (¬ inp.clkRef ∨ inp.refValid) then .next (afterRow (bootOp inp s)) else .next s

/-! ## The boot-on units of a bank (R225) -/

/-- A bank's VDn lies in its normal range (R70). -/
def bankInRange (s : State) (b : Nat) : Bool := let r := bankRange s b; decide (r.1 ≤ mv s (192 + b) ∧ mv s (192 + b) ≤ r.2)

/-- The boot-on units of a bank that have not been started: its channels, and HOLD if it stands on it. -/
def bankBootUnits (s : State) (b : Nat) : List Nat :=
  ((List.range 16).map (· + 16 * b) ++ (if (holdParams s).bank = b then [70] else [])).filter fun u =>
    slotOf s u == u && (leafOf s u).env.bootOn && !(leafOf s u).bootDone

/-- BANK_BOOT_ON (R225 step 5). -/
def bankBootOp (b : Nat) (s : State) : State :=
  if s.fw.rind = .running ∧ s.fw.profile.isSome ∧ bankInRange s b then (bankBootUnits s b).foldl bootStart s else s

/-- BANK_BOOT_ON. -/
def execBankBootOn (bank : Nat) (s : State) : Host.Outcome State Fault Refusal :=
  if bank < 4 ∧ clocked s then .next (afterRow (bankBootOp bank s)) else .next s

end Sys2Proof.Machine
end

