-- ==== Sys2Proof/Machine/Dispatch.lean ====
section
/-!
DEFINITION. Machine/Dispatch.lean: which meaning each command has.
-/

namespace Sys2Proof.Machine

/-- The effect of a command on the state (its queue of waiting commands apart). -/
def exec (i : Instr) (s : State) : Host.Outcome State Fault Refusal :=
  match i with
  | .nop sub => Sys2Proof.Machine.execNop sub s
  | .fence sub => Sys2Proof.Machine.execFence sub s
  | .abort sub => Sys2Proof.Machine.execAbort sub s
  | .unitOn sub => Sys2Proof.Machine.execUnitOn sub s
  | .unitOff sub => Sys2Proof.Machine.execUnitOff sub s
  | .unitPwm sub => Sys2Proof.Machine.execUnitPwm sub s
  | .unitResetLock sub => Sys2Proof.Machine.execUnitResetLock sub s
  | .unitRetire sub => Sys2Proof.Machine.execUnitRetire sub s
  | .unitRestore sub => Sys2Proof.Machine.execUnitRestore sub s
  | .unitConfigRead sub => Sys2Proof.Machine.execUnitConfigRead sub s
  | .unitConfigWrite sub => Sys2Proof.Machine.execUnitConfigWrite sub s
  | .hoopForm sub => Sys2Proof.Machine.execHoopForm sub s
  | .hoopEdit sub => Sys2Proof.Machine.execHoopEdit sub s
  | .hoopDissolve sub => Sys2Proof.Machine.execHoopDissolve sub s
  | .telemSnapshot sub => Sys2Proof.Machine.execTelemSnapshot sub s
  | .streamStart sub => Sys2Proof.Machine.execStreamStart sub s
  | .streamStop sub => Sys2Proof.Machine.execStreamStop sub s
  | .captureArm sub => Sys2Proof.Machine.execCaptureArm sub s
  | .captureRead sub => Sys2Proof.Machine.execCaptureRead sub s
  | .seqDefine sub => Sys2Proof.Machine.execSeqDefine sub s
  | .seqTrigger sub => Sys2Proof.Machine.execSeqTrigger sub s
  | .logRead sub => Sys2Proof.Machine.execLogRead sub s
  | .logClear sub => Sys2Proof.Machine.execLogClear sub s
  | .profileLoad sub => Sys2Proof.Machine.execProfileLoad sub s
  | .recipeLoad sub => Sys2Proof.Machine.execRecipeLoad sub s
  | .fwStage sub => Sys2Proof.Machine.execFwStage sub s
  | .fwActivate sub => Sys2Proof.Machine.execFwActivate sub s
  | .fwRollback sub => Sys2Proof.Machine.execFwRollback sub s
  | .powerState sub => Sys2Proof.Machine.execPowerState sub s
  | .timeSync sub => Sys2Proof.Machine.execTimeSync sub s
  | .calRun sub => Sys2Proof.Machine.execCalRun sub s
  | .diagRun sub => Sys2Proof.Machine.execDiagRun sub s
  | .scheduledAction => Sys2Proof.Machine.execScheduledAction s
  | .hoopTableSwap => Sys2Proof.Machine.execHoopTableSwap s
  | .protectionTick inp => Sys2Proof.Machine.execProtectionTick inp s
  | .preflight unit => Sys2Proof.Machine.execPreflight unit s
  | .rampDone unit => Sys2Proof.Machine.execRampDone unit s
  | .faultTimerExpiry unit => Sys2Proof.Machine.execFaultTimerExpiry unit s
  | .retry unit => Sys2Proof.Machine.execRetry unit s
  | .tArmExpiry unit => Sys2Proof.Machine.execTArmExpiry unit s
  | .seatConfirm unit => Sys2Proof.Machine.execSeatConfirm unit s
  | .pgChange unit => Sys2Proof.Machine.execPgChange unit s
  | .rampStall unit => Sys2Proof.Machine.execRampStall unit s
  | .rampStallClear unit => Sys2Proof.Machine.execRampStallClear unit s
  | .cleanInterval unit => Sys2Proof.Machine.execCleanInterval unit s
  | .ltClear unit => Sys2Proof.Machine.execLtClear unit s
  | .cpUv bank => Sys2Proof.Machine.execCpUv bank s
  | .cpFail bank => Sys2Proof.Machine.execCpFail bank s
  | .cpRecover bank => Sys2Proof.Machine.execCpRecover bank s
  | .sequenceStep hoop => Sys2Proof.Machine.execSequenceStep hoop s
  | .seqAbort hoop => Sys2Proof.Machine.execSeqAbort hoop s
  | .offSequenceStep hoop => Sys2Proof.Machine.execOffSequenceStep hoop s
  | .offStateCheck ch => Sys2Proof.Machine.execOffStateCheck ch s
  | .backfeedEnd ch => Sys2Proof.Machine.execBackfeedEnd ch s
  | .gateCheck ch => Sys2Proof.Machine.execGateCheck ch s
  | .stallExamination ch => Sys2Proof.Machine.execStallExamination ch s
  | .openCheck ch => Sys2Proof.Machine.execOpenCheck ch s
  | .imbalance ch => Sys2Proof.Machine.execImbalance ch s
  | .tRecoverExpiry feed => Sys2Proof.Machine.execTRecoverExpiry feed s
  | .tripCellFire ch => Sys2Proof.Machine.execTripCellFire ch s
  | .cycleTrip ch => Sys2Proof.Machine.execCycleTrip ch s
  | .pwmPeriodStart ch => Sys2Proof.Machine.execPwmPeriodStart ch s
  | .feedShort feed => Sys2Proof.Machine.execFeedShort feed s
  | .feedReverse feed => Sys2Proof.Machine.execFeedReverse feed s
  | .feedConduct feed => Sys2Proof.Machine.execFeedConduct feed s
  | .feedLoss feed => Sys2Proof.Machine.execFeedLoss feed s
  | .feedVinOv feed => Sys2Proof.Machine.execFeedVinOv feed s
  | .seatRelease pin => Sys2Proof.Machine.execSeatRelease pin s
  | .xtripChange low => Sys2Proof.Machine.execXtripChange low s
  | .holdRelease => Sys2Proof.Machine.execHoldRelease s
  | .holdReleaseEnd => Sys2Proof.Machine.execHoldReleaseEnd s
  | .regOv reg => Sys2Proof.Machine.execRegOv reg s
  | .regulatorPowerCycle => Sys2Proof.Machine.execRegulatorPowerCycle s
  | .fallbackRecycle => Sys2Proof.Machine.execFallbackRecycle s
  | .clockFail => Sys2Proof.Machine.execClockFail s
  | .brownoutWarning => Sys2Proof.Machine.execBrownoutWarning s
  | .brownoutRecovery minVsup duration => Sys2Proof.Machine.execBrownoutRecovery minVsup duration s
  | .supplyReset => Sys2Proof.Machine.execSupplyReset s
  | .powerOnReset => Sys2Proof.Machine.execPowerOnReset s
  | .rstL widthNs => Sys2Proof.Machine.execRstL widthNs s
  | .boot inp => Sys2Proof.Machine.execBoot inp s
  | .bankBootOn bank => Sys2Proof.Machine.execBankBootOn bank s
  | .rindDomainReset => Sys2Proof.Machine.execRindDomainReset s
  | .rindRestart => Sys2Proof.Machine.execRindRestart s
  | .pasteWatchdog stalled => Sys2Proof.Machine.execPasteWatchdog stalled s
  | .pasteFault core access => Sys2Proof.Machine.execPasteFault core access s
  | .pasteTrap core => Sys2Proof.Machine.execPasteTrap core s
  | .pasteSelfCheck pass => Sys2Proof.Machine.execPasteSelfCheck pass s
  | .vatUe tile => Sys2Proof.Machine.execVatUe tile s
  | .patrol found => Sys2Proof.Machine.execPatrol found s
  | .retentionRecord => Sys2Proof.Machine.execRetentionRecord s
  | .mirrorRefresh => Sys2Proof.Machine.execMirrorRefresh s
  | .conversion conv => Sys2Proof.Machine.execConversion conv s
  | .refReady bank inTolerance => Sys2Proof.Machine.execRefReady bank inTolerance s
  | .spareRotation bank node pairs => Sys2Proof.Machine.execSpareRotation bank node pairs s
  | .sliceCalibration bank pass => Sys2Proof.Machine.execSliceCalibration bank pass s
  | .burst seqId => Sys2Proof.Machine.execBurst seqId s
  | .captureDone slot => Sys2Proof.Machine.execCaptureDone slot s
  | .cmpDacCheck readback codeChanged => Sys2Proof.Machine.execCmpDacCheck readback codeChanged s
  | .eventTokenRefill source => Sys2Proof.Machine.execEventTokenRefill source s
  | .eventTileClose ring => Sys2Proof.Machine.execEventTileClose ring s
  | .ringEntryWrite index => Sys2Proof.Machine.execRingEntryWrite index s
  | .coalTimeExpiry index => Sys2Proof.Machine.execCoalTimeExpiry index s
  | .streamPageFilled ring => Sys2Proof.Machine.execStreamPageFilled ring s
  | .doorbellPoll block pages => Sys2Proof.Machine.execDoorbellPoll block pages s
  | .ringSetTableRead table => Sys2Proof.Machine.execRingSetTableRead table s
  | .descriptorFetch sq fetched => Sys2Proof.Machine.execDescriptorFetch sq fetched s
  | .hostLost => Sys2Proof.Machine.execHostLost s
  | .dmaFault target addr cmd => Sys2Proof.Machine.execDmaFault target addr cmd s
  | .translationResponse xfer size => Sys2Proof.Machine.execTranslationResponse xfer size s
  | .pageRequestResponse prg code => Sys2Proof.Machine.execPageRequestResponse prg code s
  | .pageRequestTimeout prg => Sys2Proof.Machine.execPageRequestTimeout prg s
  | .atsInvalidate addr bytes => Sys2Proof.Machine.execAtsInvalidate addr bytes s
  | .perstL asserted => Sys2Proof.Machine.execPerstL asserted s
  | .flr => Sys2Proof.Machine.execFlr s
  | .pmeTurnOff => Sys2Proof.Machine.execPmeTurnOff s
  | .wake inp => Sys2Proof.Machine.execWake inp s
  | .doeDiscovery index => Sys2Proof.Machine.execDoeDiscovery index s
  | .getVersion => Sys2Proof.Machine.execGetVersion s
  | .getCapabilities flags => Sys2Proof.Machine.execGetCapabilities flags s
  | .negotiateAlgorithms asymAlgos hashAlgos => Sys2Proof.Machine.execNegotiateAlgorithms asymAlgos hashAlgos s
  | .getDigests => Sys2Proof.Machine.execGetDigests s
  | .getCertificate slot offset length => Sys2Proof.Machine.execGetCertificate slot offset length s
  | .challenge slot nonce => Sys2Proof.Machine.execChallenge slot nonce s
  | .getMeasurements index nonce => Sys2Proof.Machine.execGetMeasurements index nonce s
  | .enable => Sys2Proof.Machine.execEnable s
  | .setupLock value => Sys2Proof.Machine.execSetupLock value s
  | .timeGtcLoRead => Sys2Proof.Machine.execTimeGtcLoRead s
  | .eventRateWrite source value => Sys2Proof.Machine.execEventRateWrite source value s
  | .vectorCtrl vector value => Sys2Proof.Machine.execVectorCtrl vector value s
  | .bar0Write offset bytes => Sys2Proof.Machine.execBar0Write offset bytes s
  | .ptmDialogue => Sys2Proof.Machine.execPtmDialogue s
  | .ptmResponse hostTime => Sys2Proof.Machine.execPtmResponse hostTime s
  | .ptmFail => Sys2Proof.Machine.execPtmFail s
  | .timeUnsync => Sys2Proof.Machine.execTimeUnsync s
  | .caveRepeatWindow => Sys2Proof.Machine.execCaveRepeatWindow s
  | .logMemFault fault => Sys2Proof.Machine.execLogMemFault fault s
  | .operatingCounterWrite => Sys2Proof.Machine.execOperatingCounterWrite s
  | .nvmRefresh => Sys2Proof.Machine.execNvmRefresh s
  | .debugToken token => Sys2Proof.Machine.execDebugToken token s
  | .ident cls => Sys2Proof.Machine.execIdent cls s
  | .statusWord cls => Sys2Proof.Machine.execStatusWord cls s
  | .notifyMaskRead cls => Sys2Proof.Machine.execNotifyMaskRead cls s
  | .notifyMaskWrite cls w => Sys2Proof.Machine.execNotifyMaskWrite cls w s
  | .result cls => Sys2Proof.Machine.execResult cls s
  | .telemSelect cls w => Sys2Proof.Machine.execTelemSelect cls w s
  | .telemRead cls => Sys2Proof.Machine.execTelemRead cls s
  | .caveSelect cls w => Sys2Proof.Machine.execCaveSelect cls w s
  | .caveRead cls => Sys2Proof.Machine.execCaveRead cls s
  | .caveClear cls w => Sys2Proof.Machine.execCaveClear cls w s
  | .unitCmd cls w => Sys2Proof.Machine.execUnitCmd cls w s
  | .bulkOpen cls w => Sys2Proof.Machine.execBulkOpen cls w s
  | .bulkChunk cls w => Sys2Proof.Machine.execBulkChunk cls w s
  | .bulkCommit cls w => Sys2Proof.Machine.execBulkCommit cls w s
  | .bulkSessionTimeout => Sys2Proof.Machine.execBulkSessionTimeout s
  | .powerSettingsRead cls => Sys2Proof.Machine.execPowerSettingsRead cls s
  | .powerSettingsWrite cls w => Sys2Proof.Machine.execPowerSettingsWrite cls w s
  | .hostNotify outcome => Sys2Proof.Machine.execHostNotify outcome s
  | .hangRecovery line => Sys2Proof.Machine.execHangRecovery line s
  | .sdaRelease => Sys2Proof.Machine.execSdaRelease s
  | .sclTimeout => Sys2Proof.Machine.execSclTimeout s
  | .pwmOffEdge ch => Sys2Proof.Machine.execPwmOffEdge ch s
  | .cmpBlankEnd ch => Sys2Proof.Machine.execCmpBlankEnd ch s
  | .gateSinkDone unit => Sys2Proof.Machine.execGateSinkDone unit s
  | .feedReverseRelease feed => Sys2Proof.Machine.execFeedReverseRelease feed s
  | .allocationTimeout cmd => Sys2Proof.Machine.execAllocationTimeout cmd s
  | .debugUnlockExpiry => Sys2Proof.Machine.execDebugUnlockExpiry s
  | .linkUp inp => Sys2Proof.Machine.execLinkUp inp s
  | .priEnable => Sys2Proof.Machine.execPriEnable s
  | .spdmUnsupportedRequest code => Sys2Proof.Machine.execSpdmUnsupportedRequest code s
  | .smbUnservedCommand cls code => Sys2Proof.Machine.execSmbUnservedCommand cls code s

end Sys2Proof.Machine
end

