-- ==== Sys2Proof/WellFormed.lean ====
section
/-!
DEFINITION. WellFormed.lean: which operands a row of the table can carry. A command that is not well formed stands for nothing the outside can do to the part.
-/

namespace Sys2Proof

/-- A submission as a descriptor and a submission ring can spell it (R320). -/
def Submission.wf (x : Submission) : Bool :=
  decide (x.sq < 16 ∧ x.tag < 4096 ∧ x.gen < 16 ∧ x.time < 18446744073709551616 ∧ x.bufAddr < 18446744073709551616 ∧ x.bufLen < 4294967296
    ∧ x.args.length = 36)

/-- The changes latched at a boundary name things the part has (R111, R133, R173, R265). -/
def TickInputs.wf (x : TickInputs) : Bool :=
  (x.cells.all fun c => decide (c.1 < 344)) && (x.fwd.all fun v => decide (v.1 < 4)) && (x.loops.all fun l => decide (l.1 < 71)) && (x.srcLimit.all fun c => decide (c < 64))
    && decide (x.pumps.length = 4) && x.mated.all fun m => decide (m < 16)

/-- A wake source and its detail (R445, R446). -/
def WakeInputs.wf (x : WakeInputs) : Bool :=
  (x.cells.all fun c => decide (c.1 < 344)) && (x.refs.all fun b => decide (b < 2)) && match x.code with
  | 4 => decide (x.detail < 32)
  | 5 => decide (x.detail < 71)
  | 8 => decide (x.detail < 16)
  | c => decide (1 ≤ c ∧ c ≤ 9) && x.detail == 0

/-- A command is well formed: its operands have the ranges that the rules of its row give them. -/
def Instr.wf (i : Instr) : Bool :=
  match i with
  | .nop sub => sub.wf
  | .fence sub => sub.wf
  | .abort sub => sub.wf
  | .unitOn sub => sub.wf
  | .unitOff sub => sub.wf
  | .unitPwm sub => sub.wf
  | .unitResetLock sub => sub.wf
  | .unitRetire sub => sub.wf
  | .unitRestore sub => sub.wf
  | .unitConfigRead sub => sub.wf
  | .unitConfigWrite sub => sub.wf
  | .hoopForm sub => sub.wf
  | .hoopEdit sub => sub.wf
  | .hoopDissolve sub => sub.wf
  | .telemSnapshot sub => sub.wf
  | .streamStart sub => sub.wf
  | .streamStop sub => sub.wf
  | .captureArm sub => sub.wf
  | .captureRead sub => sub.wf
  | .seqDefine sub => sub.wf
  | .seqTrigger sub => sub.wf
  | .logRead sub => sub.wf
  | .logClear sub => sub.wf
  | .profileLoad sub => sub.wf
  | .recipeLoad sub => sub.wf
  | .fwStage sub => sub.wf
  | .fwActivate sub => sub.wf
  | .fwRollback sub => sub.wf
  | .powerState sub => sub.wf
  | .timeSync sub => sub.wf
  | .calRun sub => sub.wf
  | .diagRun sub => sub.wf
  | .scheduledAction => true
  | .hoopTableSwap => true
  | .protectionTick inp => inp.wf
  | .preflight unit => decide (unit < 71)
  | .rampDone unit => decide (unit < 71)
  | .faultTimerExpiry unit => decide (unit < 71)
  | .retry unit => decide (unit < 71)
  | .tArmExpiry unit => decide (unit < 71)
  | .seatConfirm unit => decide (unit < 71)
  | .pgChange unit => decide (unit < 71)
  | .rampStall unit => decide (unit < 71)
  | .rampStallClear unit => decide (unit < 71)
  | .cleanInterval unit => decide (unit < 71)
  | .ltClear unit => decide (unit < 71)
  | .cpUv bank => decide (bank < 4)
  | .cpFail bank => decide (bank < 4)
  | .cpRecover bank => decide (bank < 4)
  | .sequenceStep hoop => decide (128 ≤ hoop ∧ hoop ≤ 254)
  | .seqAbort hoop => decide (128 ≤ hoop ∧ hoop ≤ 254)
  | .offSequenceStep hoop => decide (128 ≤ hoop ∧ hoop ≤ 254)
  | .offStateCheck ch => decide (ch < 64)
  | .backfeedEnd ch => decide (ch < 64)
  | .gateCheck ch => decide (ch < 64)
  | .stallExamination ch => decide (ch < 64)
  | .openCheck ch => decide (ch < 64)
  | .imbalance ch => decide (ch < 64)
  | .tRecoverExpiry feed => decide (feed < 4)
  | .tripCellFire ch => decide (ch < 64)
  | .cycleTrip ch => decide (ch < 64)
  | .pwmPeriodStart ch => decide (ch < 64)
  | .feedShort feed => decide (feed < 4)
  | .feedReverse feed => decide (feed < 4)
  | .feedConduct feed => decide (feed < 4)
  | .feedLoss feed => decide (feed < 4)
  | .feedVinOv feed => decide (feed < 4)
  | .seatRelease pin => decide (pin < 16)
  | .xtripChange _ => true
  | .holdRelease => true
  | .holdReleaseEnd => true
  | .regOv reg => decide (reg < 2)
  | .regulatorPowerCycle => true
  | .fallbackRecycle => true
  | .clockFail => true
  | .brownoutWarning => true
  | .brownoutRecovery minVsup duration => decide (minVsup < 4294967296 ∧ duration < 4294967296)
  | .supplyReset => true
  | .powerOnReset => true
  | .rstL _ => true
  | .boot inp => decide (inp.strap0 ≤ 7 ∧ inp.strap1 ≤ 7 ∧ inp.addrCode ≤ 15 ∧ inp.caveMode ≤ 2) && inp.mated.all fun m => decide (m.1 < 16)
  | .bankBootOn bank => decide (bank < 4)
  | .rindDomainReset => true
  | .rindRestart => true
  | .pasteWatchdog stalled => stalled.all fun c => decide (c < 4)
  | .pasteFault core access => decide (core < 4 ∧ access.tile < 8192)
  | .pasteTrap core => decide (core < 4)
  | .pasteSelfCheck _ => true
  | .vatUe tile => decide (tile < 8192)
  | .patrol _ => true
  | .retentionRecord => true
  | .mirrorRefresh => true
  | .conversion conv => decide (conv.bank < 2 ∧ conv.slice < 11 ∧ conv.node < 243) &&
      match conv.kind with | .pair ck _ => decide (ck < 11) | .sequence id _ => decide (id < 8) | .standing => true | .urgent => true
  | .refReady bank _ => decide (bank < 2)
  | .spareRotation bank node pairs => decide (bank < 2 ∧ node < 243 ∧ pairs.length = 16)
  | .sliceCalibration bank _ => decide (bank < 2)
  | .burst seqId => decide (seqId < 8)
  | .captureDone slot => decide (slot < 4)
  | .cmpDacCheck _ _ => true
  | .eventTokenRefill source => decide (source < 256)
  | .eventTileClose ring => decide (ring < 4)
  | .ringEntryWrite index => decide ((16 ≤ index ∧ index < 32) ∨ (40 ≤ index ∧ index < 44))
  | .coalTimeExpiry index => decide (index < 44)
  | .streamPageFilled ring => decide (ring < 8)
  | .doorbellPoll block _ => match block with | some b => decide (b.length = 256) | none => true
  | .ringSetTableRead table => match table with | some b => decide (b.length = 3072) | none => true
  | .descriptorFetch sq fetched => decide (sq < 16) && fetched.all fun d => decide (d.raw.length = 64)
  | .hostLost => true
  | .dmaFault target addr _ => decide ((target < 44 ∨ (48 ≤ target ∧ target ≤ 50)) ∧ addr < 18446744073709551616)
  | .translationResponse _ size => size.all fun bytes => decide (4096 ≤ bytes ∧ bytes % 4096 = 0)
  | .pageRequestResponse prg _ => decide (prg < 512)
  | .pageRequestTimeout prg => decide (prg < 512)
  | .atsInvalidate addr _ => decide (addr < 18446744073709551616)
  | .perstL _ => true
  | .flr => true
  | .pmeTurnOff => true
  | .wake inp => inp.wf
  | .doeDiscovery index => decide (index < 256)
  | .getVersion => true
  | .getCapabilities _ => true
  | .negotiateAlgorithms _ _ => true
  | .getDigests => true
  | .getCertificate slot offset length => decide (slot < 16 ∧ offset < 65536 ∧ length < 65536)
  | .challenge slot nonce => decide (slot < 256 ∧ nonce.length = 32)
  | .getMeasurements index nonce => decide (index < 256 ∧ nonce.length = 32)
  | .enable => true
  | .setupLock _ => true
  | .timeGtcLoRead => true
  | .eventRateWrite source _ => decide (source < 256)
  | .vectorCtrl vector _ => decide (vector < 64)
  | .bar0Write offset bytes => decide (offset + bytes.length ≤ 65536)
  | .ptmDialogue => true
  | .ptmResponse _ => true
  | .ptmFail => true
  | .timeUnsync => true
  | .caveRepeatWindow => true
  | .logMemFault fault => match fault with | .page p => decide (p < 64) | .failsafe => true
  | .operatingCounterWrite => true
  | .nvmRefresh => true
  | .debugToken _ => true
  | .ident _ => true
  | .statusWord _ => true
  | .notifyMaskRead _ => true
  | .notifyMaskWrite _ _ => true
  | .result _ => true
  | .telemSelect _ _ => true
  | .telemRead _ => true
  | .caveSelect _ _ => true
  | .caveRead _ => true
  | .caveClear _ _ => true
  | .unitCmd _ _ => true
  | .bulkOpen _ _ => true
  | .bulkChunk _ _ => true
  | .bulkCommit _ _ => true
  | .bulkSessionTimeout => true
  | .powerSettingsRead _ => true
  | .powerSettingsWrite _ _ => true
  | .hostNotify _ => true
  | .hangRecovery line => match line with | .sdaLow n => decide (1 ≤ n ∧ n ≤ 9) | .free => true | .sdaStuck => true | .sclStuck => true
  | .sdaRelease => true
  | .sclTimeout => true
  | .pwmOffEdge ch => decide (ch < 64)
  | .cmpBlankEnd ch => decide (ch < 64)
  | .gateSinkDone unit => decide (unit < 71)
  | .feedReverseRelease feed => decide (feed < 4)
  | .allocationTimeout _ => true
  | .debugUnlockExpiry => true
  | .linkUp inp => decide (1 ≤ inp.speed ∧ inp.speed ≤ 3 ∧ 1 ≤ inp.width ∧ inp.width ≤ 2)
  | .priEnable => true
  | .spdmUnsupportedRequest _ => true
  | .smbUnservedCommand _ _ => true

end Sys2Proof
end

