-- ==== Sys2Proof/Safety.lean ====
section
/-!
DEFINITION. Safety.lean: the terms in which claims about the block are made: what it means that a command is carried out, that a command of the host is taken up
and answered, and the invariant that every step keeps.
-/

namespace Sys2Proof.Machine

/-- A command is carried out: `exec` answers a next state, which is a state `t` in which the row's own effect stands, followed by what follows every row
(`afterRow`: captures take their rows, waiting commands go on, tiles that failed are tested, events are handed over). -/
def Does (c : Instr) (s : State) (P : State → Prop) : Prop := ∃ t, exec c s = .next (afterRow t) ∧ P t

/-- A leaf of its own: no member of a parallel hoop. -/
abbrev Solo (s : State) (u : Nat) : Prop := u < 71 ∧ parallelOf s u = none

/-- A leaf that protection evaluates: a leaf of its own, or the slot channel of a parallel hoop, which stands for all of the hoop; only channels are members of
one (R45, R46, R106). -/
abbrev Leads (s : State) (u : Nat) : Prop := u < 71 ∧ slotOf s u = u ∧ (64 ≤ u → parallelOf s u = none)

/-- An event as the Press raises it in `s`. -/
def pressEvent (s : State) (source code : Nat) (p0 p1 p2 : Word32) : RawEvent :=
  { source := source, code := code, p0 := p0, p1 := p1, p2 := p2, byRule := s.press.byRule }

/-! ## Frames -/

/-- From `s` to `t` only leaves and the events the Press has raised differ. -/
def LeavesOnly (s t : State) : Prop := t = { s with press := { s.press with leaves := t.press.leaves, evq := t.press.evq } }

/-- From `s` to `t` only registers of the Press other than the hoop table differ. -/
def PressOnly (s t : State) : Prop := t = { s with press := { t.press with hoops := s.press.hoops, byRule := s.press.byRule } }

/-- From `s` to `t` only the registers of a unit's own leaves differ, and `es` has been raised. -/
def Within (s t : State) (u : Nat) (es : List RawEvent) : Prop :=
  LeavesOnly s t ∧ t.press.evq = s.press.evq ++ es ∧ ∀ v, v ∉ groupOf s u → leafOf t v = leafOf s v

/-- From `s` to `t` only the registers of one leaf differ, and `es` has been raised. -/
def LeafOnly (s t : State) (u : Nat) (es : List RawEvent) : Prop :=
  LeavesOnly s t ∧ t.press.evq = s.press.evq ++ es ∧ ∀ v, v ≠ u → leafOf t v = leafOf s v

/-- What the entry of an event may touch: the Cave, the status word, captures and sequences, the link's queues, the router, the Vat. The registers of the Press,
the comparators, the clock, the non-volatile memories, the firmware's and the power states are as they were. -/
def RouterOnly (s t : State) : Prop :=
  t = { s with meas := t.meas, vat := t.vat, link := t.link, router := t.router, cave := t.cave, bus := t.bus, draws := t.draws }

/-! ## Commands of the host -/

/-- The command of the table that carries a descriptor of an opcode (R343). -/
def hostRow (op : Op) (sub : Submission) : Instr :=
  match op with
  | .nop => .nop sub
  | .fence => .fence sub
  | .abort => .abort sub
  | .unitOn => .unitOn sub
  | .unitOff => .unitOff sub
  | .unitPwm => .unitPwm sub
  | .unitResetLock => .unitResetLock sub
  | .unitRetire => .unitRetire sub
  | .unitRestore => .unitRestore sub
  | .unitConfigRead => .unitConfigRead sub
  | .unitConfigWrite => .unitConfigWrite sub
  | .hoopForm => .hoopForm sub
  | .hoopEdit => .hoopEdit sub
  | .hoopDissolve => .hoopDissolve sub
  | .telemSnapshot => .telemSnapshot sub
  | .streamStart => .streamStart sub
  | .streamStop => .streamStop sub
  | .captureArm => .captureArm sub
  | .captureRead => .captureRead sub
  | .seqDefine => .seqDefine sub
  | .seqTrigger => .seqTrigger sub
  | .logRead => .logRead sub
  | .logClear => .logClear sub
  | .profileLoad => .profileLoad sub
  | .recipeLoad => .recipeLoad sub
  | .fwStage => .fwStage sub
  | .fwActivate => .fwActivate sub
  | .fwRollback => .fwRollback sub
  | .powerState => .powerState sub
  | .timeSync => .timeSync sub
  | .calRun => .calRun sub
  | .diagRun => .diagRun sub

/-- The in-flight entry of a command of the host that is taken up now. -/
def flightFor (s : State) (op : Op) (sub : Submission) : Flight := { id := s.link.nextFlight, origin := .host, op := op, sub := sub, phase := .waiting }

/-- The state in which a command of the host starts: its tag is taken, and it stands in the in-flight table. -/
def accepted (s : State) (op : Op) (sub : Submission) : State := addFlight (takeTag s sub) .host op sub .waiting

/-- The state in which a command that is ready starts: accepted, with its buffer in bulk tiles where it reads or needs one (R19, R294). -/
def startOf (s : State) (op : Op) (sub : Submission) : State :=
  if bulkNeed (flightFor s op sub) = 0 then accepted s op sub else stageBuffer (flightFor s op sub) (accepted s op sub)

/-- What a TELEM_SNAPSHOT writes (R257, R258, R358): the records of its units, and the measurement status block for ROOT. Figures that the spec states nowhere are
the free choice drawn as it starts. -/
def snapshotBytes (s : State) (sub : Submission) : List Byte :=
  (snapshotUnits s (handleUnit sub.handle) (flag sub 3)).flatMap (fun u => telemRecord s u (draw (startOf s .telemSnapshot sub)).1)
    ++ (if handleUnit sub.handle = 255 then measStatus s else [])

/-- The records that a LOG_READ copies (R364). -/
def logRecordsFor (s : State) (sub : Submission) : List CaveRec := logRecords s.cave (arg sub 28 4) (arg sub 32 4) (flag sub 2) (flag sub 3) (flag sub 4)

/-- What a LOG_READ writes (R364): its header, the records, its trailer. -/
def logBytes (s : State) (sub : Submission) : List Byte :=
  logHeader s.cave (logRecordsFor s sub).length ++ (logRecordsFor s sub).flatMap recBytes ++ logTrailer s.cave

/-- The rows before the trigger of every capture that fills have been copied, as they are at the end of every row (R263). -/
abbrev CapturesCopied (s : State) : Prop := ∀ k, k < 4 → (capOf s k).state = .filling → (capOf s k).copied = true

/-- Paste takes a command of the host up and starts it at once: the device works and Paste serves, the descriptor is well formed, its tag is free, it passes the
common checks (R338), a fault meets no page of its buffer (R300), it names no TIME, the bulk tiles for its buffer are free (R294), nothing holds it back (R321, R347, R451): all that is in flight are scheduled
actions that wait in the Press. -/
abbrev HostReady (s : State) (op : Op) (sub : Submission) : Prop :=
  sub.wf = true ∧ s.fw.paste = .serving ∧ clocked s = true ∧ flag sub 0 = false ∧ tagRefused s sub = false ∧ commonChecks s op sub = none ∧ sub.fault = false ∧ sub.time = 0
    ∧ ¬ (s.power.brownout = true ∧ waitsForNvm op = true)
    ∧ (bulkNeed (flightFor s op sub) = 0 ∨ tilesAvailable s 69 (bulkNeed (flightFor s op sub)) = true)
    ∧ CapturesCopied s
    ∧ ∀ g ∈ s.link.flights, g.phase = .scheduled ∧ g.op ≠ .fence ∧ g.id < s.link.nextFlight

/-- What follows a command of the host in its row: transfers whose page is translated move on, the tick in progress brings what the command brings in it, tiles
that failed are tested and page failures reported, and the row ends. -/
def serveTail (t : State) : State := rowEnd (reportFaults (claimTested (tickTail (pumpXfers t))))

/-- A command of the host is carried out: `exec` answers a next state, which is a state `t` in which the command's own effect stands, followed by what
follows it in the row. -/
def Serves (c : Instr) (s : State) (P : State → Prop) : Prop := ∃ t, exec c s = .next (serveTail t) ∧ P t

/-- The completion of a command of the host (R323, R324). -/
def completionOf (sub : Submission) (status : Nat) (handle result : Word32) : Completion :=
  { tag := sub.tag, gen := sub.gen, sq := sub.sq, status := status, handle := handle, result := result, noIrq := flag sub 1 }

/-- From `s` to `t` a command of the host has completed: one entry has been queued for its CQ, and it has left the in-flight table (R323). -/
def AnswersWith (s t : State) (sub : Submission) (status : Nat) (handle result : Word32) : Prop :=
  Tbl.get [] t.link.cqHeld (cqOf s sub.sq) = Tbl.get [] s.link.cqHeld (cqOf s sub.sq) ++ [completionOf sub status handle result]
    ∧ ∀ g ∈ t.link.flights, g.id ≠ s.link.nextFlight

/-- A completion that returns the descriptor's handle. -/
def Answers (s t : State) (sub : Submission) (status : Nat) (result : Word32) : Prop := AnswersWith s t sub status sub.handle result

/-- From `s` to `t` a command of the host stands in the in-flight table in the phase given, and has not been answered. -/
def Waits (s t : State) (op : Op) (sub : Submission) (ph : Phase) : Prop :=
  (∃ g ∈ t.link.flights, g.id = s.link.nextFlight ∧ g.origin = .host ∧ g.op = op ∧ g.sub = sub ∧ g.phase = ph) ∧ t.link.cqHeld = s.link.cqHeld

/-- From `s` to `t` a command of the host has had its effect in the tick in progress: it stands as applied, and is answered with this status and with the state word
as the tick leaves it where the same row ends (R39, R344). -/
abbrev Acts (s t : State) (op : Op) (sub : Submission) (status : Nat) : Prop := Waits s t op sub (.applied status)

/-- From `s` to `t` a command of the host in flight completes: one entry has been queued for its CQ, and it has left the in-flight table (R323). -/
def EndsWith (s t : State) (f : Flight) (status : Nat) (handle result : Word32) : Prop :=
  Tbl.get [] t.link.cqHeld (cqOf s f.sub.sq) = Tbl.get [] s.link.cqHeld (cqOf s f.sub.sq) ++ [completionOf f.sub status handle result]
    ∧ ∀ g ∈ t.link.flights, g.origin = .host → g.id ≠ f.id

/-- A completion in flight that returns the descriptor's handle. -/
def Ends (s t : State) (f : Flight) (status : Nat) (result : Word32) : Prop := EndsWith s t f status f.sub.handle result

/-- From `s` to `t` only the link's registers, the tiles that follow its queues and the count of free choices differ. -/
def LinkOnly (s t : State) : Prop := t = { s with link := t.link, vat := t.vat, draws := t.draws }

/-- From `s` to `t` a command of the host has been refused with a status, and the RESULT of R344: nothing of the units has changed. -/
def Refused (s t : State) (op : Op) (sub : Submission) (status : Nat) : Prop :=
  Answers s t sub status (defaultResult s (flightFor s op sub)) ∧ t.press = s.press

/-! ## Commands of the two-wire bus -/

/-- The device works, and serves the code to the address class (R464, R466 to R468). -/
abbrev BusServes (s : State) (cls : BusClass) (code : Nat) : Prop := clocked s = true ∧ busServed s cls code = true

/-- The PEC of a write lets it act (R461). -/
abbrev PecAccepted (s : State) (w : BusWrite) : Prop := w.pec = .good ∨ (w.pec = .missing ∧ s.link.setup.pecOff = true)

/-- An action command is taken up: its code is served, its class has no command pending, its PEC is right (R468, R472). -/
abbrev BusTakes (s : State) (cls : BusClass) (code : Nat) (w : BusWrite) : Prop :=
  BusServes s cls code ∧ PecAccepted s w ∧ (busClass s cls).rState ≠ 1

/-- From `s` to `t` an action command of a class has been accepted and has completed (R472). -/
def BusCompletes (s t : State) (cls : BusClass) (status : Nat) (result : Word32) : Prop :=
  busClass t cls = { busClass s cls with rSeq := ((busClass s cls).rSeq + 1) % 256, rState := 2, rStatus := status, rResult := result } ∧ t.bus.reply = .ack

/-- From `s` to `t` an action command of a class has been accepted, and its RESULT is pending (R472). -/
def BusPends (s t : State) (cls : BusClass) : Prop :=
  busClass t cls = { busClass s cls with rSeq := ((busClass s cls).rSeq + 1) % 256, rState := 1, rStatus := 0, rResult := 0 } ∧ t.bus.reply = .ack

/-! ## The invariant -/

/-- While the device works, no event of the Press waits between two commands (R375), and the two-wire status word shows the levels as they are, with the bits
that NOTIFY_MASK selects noted (R476, R477). -/
def Settled (s : State) : Prop :=
  clocked s = true →
    s.press.evq = [] ∧ s.bus.levels = busLevels s ∧ s.bus.maskedSeen = statusWord s &&& s.bus.notifyMask

end Sys2Proof.Machine
end

