-- ==== Sys2Proof/Certificates/Slice0/Obligations.lean ====
section
/-!
DEFINITION. Certificates/Slice0/Obligations.lean: the statements about the block.
-/

open Sys2Proof Sys2Proof.Machine

/-! ## Leaves: trips, retries, ramps, power-good, seating -/

/-- A trip of a unit that conducts (R120, R127, R128): with a retry left it goes to COOL, spends it and starts the retry delay, which doubles with every retry
spent up to 256 times PROT_RETRY_BASE; with none left it goes to LOCK with kind OVERCURRENT (substate 0). The lowest cause is kept with the mask of all. A
unit that leaves LIMIT raises LIMIT_EXIT first (R122); TRIP is raised, and LOCK after it. Nothing outside the Press changes, and for a channel and a regulator
no register of a leaf outside the unit. -/
def Obligations.TripSpendsARetryOrLocks : Prop :=
  ∀ (s : State) (u mask : Nat), Leads s u → (vleaf s u).st.conducting = true → mask < 256 →
    (soft s u fRetryMax ≤ 15) →
      (if (vleaf s u).retries < soft s u fRetryMax then
        (vleaf (trip s u mask) u).st = .cool ∧ (vleaf (trip s u mask) u).retries = (vleaf s u).retries + 1
          ∧ (vleaf (trip s u mask) u).retryUs = soft s u fRetryBase * 2 ^ min (vleaf s u).retries 8 * 1000
       else
        (vleaf (trip s u mask) u).st = .lock ∧ (vleaf (trip s u mask) u).sub = 0 ∧ (vleaf (trip s u mask) u).retries = (vleaf s u).retries)
      ∧ (vleaf (trip s u mask) u).cause = lowestCause mask ∧ (vleaf (trip s u mask) u).mask = mask
      ∧ (vleaf (trip s u mask) u).cleanT = 0
      ∧ (vleaf (trip s u mask) u).gate = sinkMode (leafKind u) (vleaf s u).env.clamp true (vleaf s u).gate
      ∧ (∃ p0 p1 p2, (trip s u mask).press.evq =
          s.press.evq ++ (if (vleaf s u).st = .limit then [pressEvent s (eventUnit s u) evLimitExit (w32 (vleaf s u).limitLoop) 0 0] else [])
            ++ pressEvent s (eventUnit s u) evTrip p0 p1 p2 ::
            (if (vleaf s u).retries < soft s u fRetryMax then [] else [pressEvent s (eventUnit s u) evLock 0 (w32 (lowestCause mask)) 0]))
      ∧ (trip s u mask) = { s with press := (trip s u mask).press }
      ∧ ((leafKind u = .channel ∨ leafKind u = .regulator) → ∀ v, v ∉ groupOf s u → leafOf (trip s u mask) v = leafOf s v)

/-- FAULT_TIMER_EXPIRY (R113, R120, R132): once the fault timer has reached PROT_FAULT_TIME, taken as the next whole number of ticks, a conducting unit trips
with cause FAULT_TIME (bit 2 of the mask) and with SHORT (bit 0) and PUMP (bit 1) where they stand in the tick, the lowest as TRIP_CAUSE; a damage verdict
that is to be acted on in the tick comes before the trip: the unit goes to LOCK with kind DAMAGE and keeps its TRIP_CAUSE. Before that nothing changes. RETRY
(R37, R40, R129, R137, R205): a unit in COOL whose retry delay has run out and whose models are below re-arm goes to OFF with RETRY_CANCELLED, a shed since or
still in force, or a device that starts nothing; else, where no member is damaged, to ARM, with the fault timer at 0 and the latches cleared but for that of a
trip cell still asserted (R273), TRIP_CAUSE kept, and RETRY raised with RETRIES_USED. T_ARM_EXPIRY (R37, R138): a unit in ARM whose seating has not been
confirmed within PROT_T_ARM returns to OFF, its attempt ending with SEAT. PREFLIGHT (R158): a unit in ARM whose first failing check is `k`, other than the
wait for seating, returns to OFF, its attempt ending with PREFLIGHT, and PREFLIGHT_REFUSE carries the check. CLEAN_INTERVAL (R130): at PROT_CLEAN_INT one
retry is given back and the timer restarts. -/
def Obligations.FaultTimerRetriesAndArm : Prop :=
  (∀ (s : State) (u : Nat), clocked s = true → Leads s u → (vleaf s u).st.conducting = true → soft s u fFaultTime ≠ 0 →
      (∀ m ∈ groupOf s u, (leafOf s m).diag.pending = 0) →
     Does (.faultTimerExpiry u) s fun t =>
       if wholeTicks s (soft s u fFaultTime) * 8 ≤ (vleaf s u).faultT then
         (vleaf t u).mask = 4
             + ofB ((leafOf s u).tripLatch && !(leafOf s u).tripClock && !((vleaf s u).pwm.cycleTrip && (vleaf s u).sub == 1))
             + 2 * ofB (leafKind u == .channel && (pumpOf s (bankOf u)).fail)
           ∧ (vleaf t u).cause = lowestCause (vleaf t u).mask
           ∧ ((vleaf t u).st = .cool ∨ (vleaf t u).st = .lock)
       else t = s)
  ∧ (∀ (s : State) (u : Nat), clocked s = true → u < 64 → parallelOf s u = none → (leafOf s u).st.conducting = true → soft s u fFaultTime ≠ 0 →
      wholeTicks s (soft s u fFaultTime) * 8 ≤ (leafOf s u).faultT → (leafOf s u).diag.pending ≠ 0 →
     Does (.faultTimerExpiry u) s fun t => (leafOf t u).st = .lock ∧ (leafOf t u).sub = 1 ∧ (leafOf t u).cause = (leafOf s u).cause)
  ∧ (∀ (s : State) (u : Nat), clocked s = true → Leads s u → (vleaf s u).st = .cool → (vleaf s u).retryUs = 0 → rearmed s u = true → damagedMember s u = false →
     Does (.retry u) s fun t =>
       if (vleaf s u).retryCancelled = true ∨ (vleaf s u).coolShed = true ∨ (vleaf s u).shedHeld = true ∨ noStart s u = true then
         (vleaf t u).st = .off ∧ (vleaf t u).retryCancelled = false ∧ Within s t u []
       else
         (vleaf t u).st = .arm ∧ (vleaf t u).faultT = 0 ∧ (vleaf t u).cause = (vleaf s u).cause ∧ (vleaf t u).mask = (vleaf s u).mask
           ∧ (leafOf t u).offLatch = false ∧ (leafOf t u).tripLatch = ((leafOf s u).tripClock || tripStands s u)
           ∧ (vleaf t u).retries = (vleaf s u).retries
           ∧ t.press.evq = s.press.evq ++ [pressEvent s (eventUnit s u) evRetry (w32 (vleaf s u).retries) (w32 (vleaf s u).retryMs) 0]
           ∧ t = { s with press := t.press, cmp := t.cmp, meas := t.meas }
           ∧ ∀ v, v ∉ groupOf s u → leafOf t v = leafOf s v)
  ∧ (∀ (s : State) (u : Nat), clocked s = true → Leads s u → (vleaf s u).st = .cool → (vleaf s u).retryUs = 0 → rearmed s u = true → damagedMember s u = false →
      (vleaf s u).retryCancelled = false → (vleaf s u).coolShed = false → (vleaf s u).shedHeld = false → noStart s u = false →
    Does (.retry u) s fun t => (vleaf t u).st = .arm ∧ (vleaf t u).retries = (vleaf s u).retries)
  ∧ (∀ (s : State) (u : Nat), clocked s = true → Leads s u → (vleaf s u).st = .arm → seated s u = false →
      wholeTicks s (soft s u fTArm * 1000) ≤ (vleaf s u).armUs →
    Does (.tArmExpiry u) s fun t => (vleaf t u).st = .off ∧ (vleaf t u).ended = stSeat ∧ Within (holdOffEnds s u) t u [])
  ∧ (∀ (s : State) (u k : Nat), clocked s = true → Leads s u → (vleaf s u).st = .arm → tickUs s ≤ (vleaf s u).armUs → refAwaited s u = false →
      preflightCheck s u = some k → k ≠ 3 →
    Does (.preflight u) s fun t =>
      (vleaf t u).st = .off ∧ (vleaf t u).ended = stPreflight
        ∧ ∃ p1 p2, Within (holdOffEnds s u) t u [pressEvent s (eventUnit s u) evPreflightRefuse (w32 k) p1 p2])
  ∧ (∀ (s : State) (u : Nat), clocked s = true → Leads s u → (vleaf s u).st = .on → soft s u fCleanInt * 1000000 ≤ (vleaf s u).cleanT →
    Does (.cleanInterval u) s fun t =>
      (vleaf t u).retries = (vleaf s u).retries - 1 ∧ (vleaf t u).cleanT = 0 ∧ (vleaf t u).st = .on ∧ Within s t u [])

/-- PREFLIGHT of a unit that passes (R37, R79, R157, R158): two ticks after it entered ARM, or seating was confirmed, it enters RAMP with its driver in SERVO
(the charger's switch, and a driver whose latch is set, stay as they are) and, where its MOSFET is modelled, an energy episode open, its reference at the
output, or at the supply where the output stands there already; such a ramp may be complete at once (R81). Leaves outside the unit keep all but the phases of
their pulse generators. RAMP_DONE (R81, R195, R208): once the reference has reached the supply and the output is within DRV_V_DONE of it (for HOLD, once the
charge current has reached its setting), a unit in RAMP enters ON, its driver goes to ENHANCE unless its latch is set (the charger's switch holds off), a feed
is in CONDUCTING where its own input is not the lower and its reverse cell is released, RAMP_STALL clears (R118), the energy episode closes (R152), and
RAMP_DONE is raised; before that nothing changes. -/
def Obligations.StartsReachOn : Prop :=
  (∀ (s : State) (u : Nat), clocked s = true → Leads s u → (vleaf s u).st = .arm → tickUs s ≤ (vleaf s u).armUs → refAwaited s u = false →
     preflightCheck s u = none → 2 * tickUs s ≤ (vleaf s u).armReady.getD 0 →
     Does (.preflight u) s fun t =>
       (if rampComplete (enterRamp s u) u = true then (vleaf t u).st = .on
        else
         (vleaf t u).st = .ramp
           ∧ (vleaf t u).gate = (if leafKind u = .hold then .holdOff else if (vleaf s u).tripLatch = true
               ∨ (vleaf s u).offLatch = true then (vleaf s u).gate else .servo)
           ∧ (hasFet (vleaf s u).env = true → (vleaf t u).led.evOpen = true ∧ (vleaf t u).led.eEv = 0)
           ∧ (leafKind u ≠ .hold →
               (vleaf t u).ramp.setpoint = (if supplyMv s u - (soft s u fVDone : Rat) ≤ outMv s u then supplyMv s u else outMv s u)))
         ∧ t = { s with press := { s.press with leaves := t.press.leaves, evq := t.press.evq, hold := t.press.hold }, cmp := t.cmp }
         ∧ ∀ v, v ∉ groupOf s u → { leafOf t v with pwm := (leafOf s v).pwm } = leafOf s v)
  ∧ (∀ (s : State) (u : Nat), clocked s = true → Leads s u → (vleaf s u).st = .arm → tickUs s ≤ (vleaf s u).armUs → refAwaited s u = false →
      preflightCheck s u = none → 2 * tickUs s ≤ (vleaf s u).armReady.getD 0 → rampComplete (enterRamp s u) u = false →
    Does (.preflight u) s fun t => (vleaf t u).st = .ramp ∧ (hasFet (vleaf s u).env = true → (vleaf t u).led.evOpen = true))
  ∧ (∀ (s : State) (u : Nat), clocked s = true → Leads s u → (vleaf s u).st = .ramp →
     Does (.rampDone u) s fun t =>
       if (if leafKind u = .hold then (soft s u fIChg : Rat) ≤ s.press.hold.iRef
           else supplyMv s u ≤ (vleaf s u).ramp.setpoint ∧ supplyMv s u - (soft s u fVDone : Rat) ≤ outMv s u) then
         (vleaf t u).st = .on ∧ (vleaf t u).gate = (if leafKind u = .hold then .holdOff else askGate (vleaf s u) .enhance) ∧ (vleaf t u).ramp.stall = false
           ∧ (vleaf t u).sub = (if leafKind u = .feed ∧ (cellOf s (196 + u)).level = false ∧ outMv s u ≤ supplyMv s u then 1 else 0)
           ∧ (vleaf t u).led.evOpen = false
           ∧ (vleaf t u).led.eEvLast = (if (vleaf s u).led.evOpen = true then (vleaf s u).led.eEv else (vleaf s u).led.eEvLast)
           ∧ (∃ p0 p1 p2, t.press.evq = s.press.evq ++ [pressEvent s (eventUnit s u) evRampDone p0 p1 p2])
           ∧ t = { s with press := { s.press with leaves := t.press.leaves, evq := t.press.evq }, cmp := t.cmp }
           ∧ ∀ v, v ∉ groupOf s u → { leafOf t v with pwm := (leafOf s v).pwm } = leafOf s v
       else t = s)
  ∧ (∀ (s : State) (u : Nat), clocked s = true → Leads s u → (vleaf s u).st = .ramp → leafKind u ≠ .hold → supplyMv s u ≤ (vleaf s u).ramp.setpoint →
      supplyMv s u - (soft s u fVDone : Rat) ≤ outMv s u → Does (.rampDone u) s fun t => (vleaf t u).st = .on ∧ (vleaf t u).led.evOpen = false)

/-- RAMP_STALL and RAMP_STALL_CLEAR (R116, R118): a lag beyond PROT_V_TRACK for more than PROT_T_TRACK is recorded, raising RAMP_STALL and spoiling the fit; a
lag below half of it for PROT_T_TRACK clears the record. LT_CLEAR (R153): the let-through integral ends after LT_CLEAR of quiet current. -/
def Obligations.StallsAndLetThrough : Prop :=
  (∀ (s : State) (u : Nat), clocked s = true → Leads s u → (vleaf s u).st = .ramp → (vleaf s u).ramp.stall = false →
      wholeTicks s (soft s u fTTrack) < (vleaf s u).ramp.lagUs →
    Does (.rampStall u) s fun t =>
      (vleaf t u).ramp.stall = true ∧ (vleaf t u).ramp.stalledOnce = true ∧ (vleaf t u).st = .ramp
        ∧ ∃ p0, Within s t u [pressEvent s (eventUnit s u) evRampStall p0 0 0])
  ∧ (∀ (s : State) (u : Nat), clocked s = true → Leads s u → (vleaf s u).st = .ramp → (vleaf s u).ramp.stall = true →
      wholeTicks s (soft s u fTTrack) ≤ (vleaf s u).ramp.clearUs →
    Does (.rampStallClear u) s fun t =>
      (vleaf t u).ramp.stall = false ∧ (vleaf t u).ramp.stalledOnce = (vleaf s u).ramp.stalledOnce ∧ Within s t u [])
  ∧ (∀ (s : State) (u : Nat), clocked s = true → u < 71 → (leafOf s u).led.ltRunning = true → (leafOf s u).env.ltClear * 1000 ≤ (leafOf s u).led.ltQuiet →
    Does (.ltClear u) s fun t => (leafOf t u).led.lt = 0 ∧ (leafOf t u).led.ltRunning = false ∧ LeafOnly s t u [])

/-- PG_CHANGE (R123, R124): a unit in ON whose output has been in its window for PROT_T_PG beyond the present tick gains PG; PG drops at once in any state but
ON and LIMIT, outside the window, or on entering LIMIT with PG_DROP_ON_LIMIT. SEAT_CONFIRM (R133): seating is confirmed once every mapped pin has been mated
for 5 ms; a feed in OFF by mate release that AUTO_MATE selects is then re-armed (R196), unless it is shed or the device starts nothing. SEAT_RELEASE (R134):
every leaf mapped to the pin has its OFF latch set and its gate sunk FAST, whatever its state, which the row leaves; the pin's time mated starts again.
XTRIP_CHANGE (R135, R276, R394): a fall of the line sets the OFF latches of leaves with reaction OFF; either change is counted, and XTRIP_CHANGE, with the
line's level and whether this device pulls it, waits for the boundary that reads it (R23). -/
def Obligations.SeatsAndPowerGood : Prop :=
  (∀ (s : State) (u : Nat), clocked s = true → Leads s u → (vleaf s u).pg = false → (vleaf s u).st = .on → inWindow s u = true →
      wholeTicks s (soft s u fTPg) + tickUs s ≤ (vleaf s u).pgUs →
    Does (.pgChange u) s fun t => (vleaf t u).pg = true ∧ Within s t u [pressEvent s (eventUnit s u) evPgChange 1 0 0])
  ∧ (∀ (s : State) (u : Nat), clocked s = true → Leads s u → (vleaf s u).st ≠ .retired → (vleaf s u).pg = true →
      ((vleaf s u).st ≠ .on ∧ (vleaf s u).st ≠ .limit ∨ inWindow s u = false ∨ ((vleaf s u).limitNow = true ∧ soft s u fPgDrop = 1)) →
    Does (.pgChange u) s fun t => (vleaf t u).pg = false ∧ Within s t u [pressEvent s (eventUnit s u) evPgChange 0 0 0])
  ∧ (∀ (s : State) (u : Nat), clocked s = true → Leads s u → seatsOf s u ≠ [] → u ∉ s.press.confirmed →
      (∀ i ∈ seatsOf s u, 5000 ≤ Tbl.get 0 s.press.mated i) →
    Does (.seatConfirm u) s fun t =>
      t.press.confirmed = s.press.confirmed ++ [u] ∧ seated t u = true
        ∧ if leafKind u = .feed ∧ (feedParams s u).autoMate = true ∧ (leafOf s u).autoMate = true ∧ (leafOf s u).st = .off ∧ (leafOf s u).shedHeld = false
              ∧ noStart s u = false then
            (leafOf t u).st = .arm ∧ ∀ v, v ≠ u → leafOf t v = leafOf s v
          else ∃ p0, t = { s with press := { s.press with confirmed := t.press.confirmed,
                                                          evq := s.press.evq ++ [pressEvent s (eventUnit s u) evSeatConfirm p0 0 0] } })
  ∧ (∀ (s : State) (pin : Nat), s.power.booting = false → pin < 16 →
    Does (.seatRelease pin) s fun t =>
      Tbl.find t.press.mated pin = none
        ∧ (∀ u, u < 71 → pin ∈ seatsOf s u →
            (leafOf t u).offLatch = true ∧ (leafOf t u).offSeat = true ∧ (leafOf t u).st = (leafOf s u).st
              ∧ ((leafOf t u).gate = .holdOff ∨ (leafOf t u).gate = .sinkFast))
        ∧ (∀ u, (leafOf t u).st = (leafOf s u).st ∧ (leafOf t u).env = (leafOf s u).env)
        ∧ t = { s with press := { s.press with leaves := t.press.leaves, mated := t.press.mated } })
  ∧ (∀ (s : State) (low : Bool), s.power.booting = false → s.press.xtripLow ≠ low →
    Does (.xtripChange low) s fun t =>
      t.press.xtripLow = low
        ∧ Tbl.get {} t.cmp.edges 8 = { rise := (Tbl.get {} s.cmp.edges 8).rise || low, fall := (Tbl.get {} s.cmp.edges 8).fall || !low,
                                       count := satN 255 ((Tbl.get {} s.cmp.edges 8).count + 1) }
        ∧ t.press.cellq = s.press.cellq ++ [pressEvent s 76 evXtripChange (w32 (ofB low + 2 * ofB (pullsXtrip s))) 0 0]
        ∧ (∀ u, u < 71 → low = true → (leafOf s u).env.xtripOff = true → (leafOf t u).offLatch = true)
        ∧ (∀ u, (leafOf t u).st = (leafOf s u).st)
        ∧ (low = false → ∀ u, leafOf t u = leafOf s u)
        ∧ t = { s with press := { s.press with leaves := t.press.leaves, cellq := t.press.cellq, xtripLow := low }, cmp := t.cmp })

/-! ## Bank pumps and sequences -/

/-- CP_UV and CP_RECOVER (R73): 10 µs below VDn + 8.5 V records CP_UV and raises it; 100 µs above VDn + 9.0 V clears both records. CP_FAIL (R73, R105, R120):
10 µs below VDn + 6.0 V records CP_FAIL and raises it; no unit of the bank conducts any more. A conducting unit that shares no leaf with another of the bank
is in COOL or LOCK, and, where no damage verdict waited for it, has tripped with PUMP (bit 1 of the mask), its cause the lowest of the tick's. Leaves of other
banks that share no unit with this one keep their registers, where no damage verdict waits. -/
def Obligations.PumpsProtectTheirBanks : Prop :=
  (∀ (s : State) (b : Nat), clocked s = true → b < 4 → (pumpOf s b).uv = false → 10 ≤ (pumpOf s b).lowUs →
    Does (.cpUv b) s fun t =>
      pumpOf t b = { pumpOf s b with uv := true } ∧ (∀ c, c ≠ b → pumpOf t c = pumpOf s c)
        ∧ t = { s with press := { s.press with pumps := t.press.pumps, evq := s.press.evq ++ [pressEvent s (16 * b) evCpUv (w32 b) 0 0] } })
  ∧ (∀ (s : State) (b : Nat), clocked s = true → b < 4 → 100 ≤ (pumpOf s b).okUs →
    Does (.cpRecover b) s fun t =>
      pumpOf t b = { pumpOf s b with uv := false, fail := false } ∧ (∀ c, c ≠ b → pumpOf t c = pumpOf s c)
        ∧ t = { s with press := { s.press with pumps := t.press.pumps } })
  ∧ (∀ (s : State) (b : Nat), clocked s = true → b < 4 → (pumpOf s b).fail = false → 10 ≤ (pumpOf s b).failUs →
     Does (.cpFail b) s fun t =>
       pumpOf t b = { pumpOf s b with fail := true } ∧ (∀ c, c ≠ b → pumpOf t c = pumpOf s c)
         ∧ (∃ es, t.press.evq = s.press.evq ++ pressEvent s (16 * b) evCpFail (w32 b) 0 0 :: es)
         ∧ (∀ c, 16 * b ≤ c → c < 16 * b + 16 → slotOf s c = c → (vleaf t c).st.conducting = false)
         ∧ (∀ c, 16 * b ≤ c → c < 16 * b + 16 → slotOf s c = c → (vleaf s c).st.conducting = true →
             (∀ d, 16 * b ≤ d → d < 16 * b + 16 → slotOf s d = d → d ≠ c → ∀ m ∈ groupOf s c, m ∉ groupOf s d) →
             ((vleaf t c).st = .cool ∨ (vleaf t c).st = .lock)
               ∧ ((∀ m ∈ groupOf s c, (leafOf s m).diag.pending = 0) → (vleaf t c).mask.testBit 1 = true ∧ (vleaf t c).cause = lowestCause (vleaf t c).mask))
         ∧ ((∀ m, (leafOf s m).diag.pending = 0 ∧ (leafOf s m).diag.trippedOff = false) → ∀ v, (∀ d, 16 * b ≤ d → d < 16 * b + 16 → v ∉ groupOf s d)
             → leafOf t v = leafOf s v)
         ∧ t = { s with press := { t.press with hoops := s.press.hoops, byRule := s.press.byRule }, cmp := t.cmp, nvm := t.nvm, meas := t.meas })

/-- SEQUENCE_STEP (R55, R56): the leaves of their own, in OFF, that are due in the running step of an ON sequence and that nothing holds back enter ARM, and
are noted as started; with none due nothing changes. A due member that is itself a group hoop, and reports no RETIRED, begins its own ON sequence. SEQ_ABORT
(R58): when a cause against a running ON sequence has arisen in the tick, the sequence ends: SEQ_ABORT names the unit and the status of the cause that stands
highest in R58's table, and no UNIT_ON waits for that sequence any more. The non-volatile memory, the clock, the firmware, the comparators and the power
states stand. OFF_SEQUENCE_STEP (R57): once the gap has passed, the leaves of their own of the next lower step are turned off as by UNIT_OFF: one in ARM to
LIMIT goes to OFF, one in COOL has its retry cancelled, any other keeps its state; the step below comes next. No other leaf changes. -/
def Obligations.SequencesRunAndAbort : Prop :=
  (∀ (s : State) (h k us : Nat) (x : Hoop) (st : List (Nat × Nat)), clocked s = true → 128 ≤ h → h ≤ 254 → hoopOf s h = some x → x.seq = .on k us st →
      (∀ e ∈ dueEntries s x k us st,
        hoopOf s e.member = none ∧ Solo s e.member ∧ (leafOf s e.member).st = .off ∧ startRefusal s e.member = none) →
    Does (.sequenceStep h) s fun t =>
      runOf t h = .on k us (st ++ (dueEntries s x k us st).map fun e => (e.member, 0))
        ∧ (∀ e ∈ dueEntries s x k us st, (leafOf t e.member).st = .arm ∧ (leafOf t e.member).armUs = 0 ∧ (leafOf t e.member).faultT = 0)
        ∧ (∀ v, (∀ e ∈ dueEntries s x k us st, v ≠ e.member) → leafOf t v = leafOf s v)
        ∧ t = { s with press := { s.press with leaves := t.press.leaves, hoops := t.press.hoops }, cmp := t.cmp, meas := t.meas })
  ∧ (∀ (s : State) (h k us : Nat) (x y : Hoop) (st : List (Nat × Nat)) (e : SeqEntry) (k0 : Nat), clocked s = true → 128 ≤ h → h ≤ 254 →
      hoopOf s h = some x → x.seq = .on k us st → dueEntries s x k us st = [e] → e.member ≠ h → hoopOf s e.member = some y → y.parallel = false →
      y.seq = .idle → (unitAgg s e.member).1 ≠ .retired → lowest (stepsFor y y.members) = some k0 → dueEntries s y k0 0 [] = [] →
    Does (.sequenceStep h) s fun t =>
      runOf t h = .on k us (st ++ [(e.member, 0)]) ∧ runOf t e.member = .on k0 0 []
        ∧ t = { s with press := { s.press with hoops := t.press.hoops } })
  ∧ (∀ (s : State) (h : Nat) (x : Hoop) (c : Nat × Nat × Nat), clocked s = true → 128 ≤ h → h ≤ 254 → hoopOf s h = some x → x.ending = none
      → x.seq.isOn = true →
       firstCause (abortCauses s x x.seq) = some c →
     Does (.seqAbort h) s fun t =>
       (∃ es, t.press.evq = s.press.evq ++ pressEvent s h evSeqAbort (w32 c.2.2) (w32 c.2.1) 0 :: es)
         ∧ (runOf t h).isOn = false
         ∧ (∀ f ∈ t.link.flights, ¬ (f.phase = .sequence h ∧ f.op = .unitOn))
         ∧ t = { s with press := t.press, link := t.link, vat := t.vat, cave := t.cave, bus := t.bus, draws := t.draws })
  ∧ (∀ (s : State) (h k us : Nat) (x : Hoop) (ms : List Nat), clocked s = true → 128 ≤ h → h ≤ 254 → hoopOf s h = some x → x.seq = .off ms (some k) (some us) →
       0 < us →
       wholeTicks s ((entriesAt x ms ((lowest ((stepsFor x ms).filter (k < ·))).getD 0)).foldl (fun g e => Nat.max g e.delay) 0 * 100) ≤ us →
       (∀ e ∈ entriesAt x ms k, hoopOf s e.member = none ∧ Solo s e.member) → (entriesAt x ms k).Pairwise (fun e f => e.member ≠ f.member) →
     Does (.offSequenceStep h) s fun t =>
       runOf t h = .off ms (highest ((stepsFor x ms).filter (· < k))) none
         ∧ (∀ e ∈ entriesAt x ms k,
             (leafOf t e.member).st = (if (leafOf s e.member).st.active = true then .off else (leafOf s e.member).st)
               ∧ ((leafOf s e.member).st = .cool → (leafOf t e.member).retryCancelled = true))
         ∧ (∀ v, (∀ e ∈ entriesAt x ms k, v ≠ e.member) → leafOf t v = leafOf s v)
         ∧ t = { s with press := t.press })

/-! ## Diagnostics -/

/-- OFF_STATE_CHECK and BACKFEED_END (R170, R172), where the channel's bank has its reference (R241): once the output of a channel that is off has stayed high
for DIAG_T_CHECK, a leakage of DIAG_LEAK_I or more is a DS_SHORT verdict for the next step 1 (R179), a smaller one a BACKFEED report; the report ends when the
output has stayed low as long. GATE_CHECK (R173, R177), of a channel that is not retired, where its bank has its reference (R241): in ON or LIMIT with the
window open, a gate sample of the window (the next usable one where it held none) of at least DIAG_VGS_OK passes and closes it, and is DS_SHORT where the
channel was found shorted at ARM; at the window's end a gate at 1 V or less with the driver at its limit is GS_SHORT (DS_SHORT over BACKFEED or DS_SHORT at
ARM), and, unless the bank's pump is under voltage, any other is GATE_LOW (DS_SHORT over DS_SHORT at ARM), raised where DIAG_REPORT_EN says so. A BACKFEED
report that stood at ARM goes on standing with a gate that passes or is low. -/
def Obligations.OffStateAndGateChecks : Prop :=
  (∀ (s : State) (ch : Nat), clocked s = true → ch < 64 → bankReleased s ch = false → offRuns s ch = true → checkTime s ch ≤ (leafOf s ch).diag.leakUs →
      (leafOf s ch).diag.leakI.length = 16 →
    Does (.offStateCheck ch) s fun t =>
      if (soft s ch fLeakI : Rat) ≤ meanOf (leafOf s ch).diag.leakI then
        (leafOf t ch).diag.pending = (if (leafOf s ch).diag.verdict = 1 then (leafOf s ch).diag.pending else (leafOf s ch).diag.pending ||| 1)
          ∧ LeafOnly s t ch []
      else
        (leafOf t ch).diag.backfeed = true ∧ (leafOf t ch).diag.pending = (leafOf s ch).diag.pending
          ∧ ∃ p0 p1, LeafOnly s t ch
              (if (leafOf s ch).diag.backfeed = false ∧ (soft s ch fReportEn).testBit 0 = true
               then [pressEvent s (eventUnit s ch) evBackfeed p0 p1 0] else []))
  ∧ (∀ (s : State) (ch : Nat), clocked s = true → ch < 64 → bankReleased s ch = false → (leafOf s ch).diag.backfeed = true
      → checkTime s ch ≤ (leafOf s ch).diag.quietUs →
    Does (.backfeedEnd ch) s fun t => (leafOf t ch).diag.backfeed = false ∧ LeafOnly s t ch [])
  ∧ (∀ (s : State) (ch : Nat), clocked s = true → ch < 64 → bankReleased s ch = false → offRuns s ch = true → checkTime s ch ≤ (leafOf s ch).diag.leakUs →
      (leafOf s ch).diag.leakI.length = 16 → (soft s ch fLeakI : Rat) ≤ meanOf (leafOf s ch).diag.leakI → (leafOf s ch).diag.verdict ≠ 1 →
    Does (.offStateCheck ch) s fun t => (leafOf t ch).diag.pending = (leafOf s ch).diag.pending ||| 1)
  ∧ (∀ (s : State) (ch : Nat) (g : Rat), clocked s = true → ch < 64 → bankReleased s ch = false → (leafOf s ch).diag.gateOpen = true → ((vleaf s ch).st = .on
      ∨ (vleaf s ch).st = .limit) →
       (leafOf s ch).st ≠ .retired →
       gateSample s ch = some g → (leafOf s ch).diag.pending = 0 →
     Does (.gateCheck ch) s fun t =>
       if (soft s ch fVgsOk : Rat) ≤ g then
         (leafOf t ch).diag.gateOpen = false ∧ (leafOf t ch).diag.gateLow = false
           ∧ (leafOf t ch).diag.backfeed = ((leafOf s ch).diag.backfeed || (leafOf s ch).diag.backfeedAtArm)
           ∧ (leafOf t ch).diag.pending = (if (leafOf s ch).diag.shortAtArm = true ∧ (leafOf s ch).diag.verdict ≠ 1 then 1 else 0) ∧ LeafOnly s t ch []
       else if (leafOf s ch).diag.gateUs ≤ wholeTicks s (soft s ch fTGate) then
         (leafOf t ch).diag = { (leafOf s ch).diag with gateLast := some g } ∧ LeafOnly s t ch []
       else
         (leafOf t ch).diag.gateOpen = false
           ∧ (if (leafOf s ch).diag.srcLimit = true ∧ g ≤ 1000 then
               (leafOf t ch).diag.pending = (if (leafOf s ch).diag.backfeedAtArm = true ∨ (leafOf s ch).diag.shortAtArm = true then 1 else 2)
                 ∧ LeafOnly s t ch []
              else if (pumpOf s (bankOf ch)).uv = true then
               (leafOf t ch).diag.pending = 0 ∧ (leafOf t ch).diag.gateLow = (leafOf s ch).diag.gateLow ∧ LeafOnly s t ch []
              else if (leafOf s ch).diag.shortAtArm = true then (leafOf t ch).diag.pending = 1 ∧ LeafOnly s t ch []
              else
               (leafOf t ch).diag.pending = 0 ∧ (leafOf t ch).diag.gateLow = true
                 ∧ (leafOf t ch).diag.backfeed = ((leafOf s ch).diag.backfeed || (leafOf s ch).diag.backfeedAtArm)
                 ∧ ∃ p0, LeafOnly s t ch
                     (if (soft s ch fReportEn).testBit 1 = true then [pressEvent s (eventUnit s ch) evGateLow p0 0 0] else [])))
  ∧ (∀ (s : State) (ch : Nat) (g : Rat), clocked s = true → ch < 64 → bankReleased s ch = false → (leafOf s ch).diag.gateOpen = true → ((vleaf s ch).st = .on
      ∨ (vleaf s ch).st = .limit) →
       (leafOf s ch).st ≠ .retired →
      gateSample s ch = some g → (leafOf s ch).diag.pending = 0 → (soft s ch fVgsOk : Rat) ≤ g → (leafOf s ch).diag.shortAtArm = false →
    Does (.gateCheck ch) s fun t =>
      (leafOf t ch).diag.gateOpen = false ∧ (leafOf t ch).diag.gateLow = false ∧ (leafOf t ch).diag.pending = 0 ∧ LeafOnly s t ch [])

/-- STALL_EXAMINATION (R169, R174, R177), for a non-retired channel of the unit, where its bank has its reference (R241), as in what follows: at its first
gate sample DIAG_T_GATE after RAMP_STALL, with a summed current below DIAG_LEAK_I, a gate at 1 V or less is GS_SHORT, one at DIAG_VGS_OK or more is OPEN,
crossed with what ARM found; a channel is examined once in a stall. OPEN_CHECK (R175, R177): a channel that shows no current for DIAG_T_CHECK is OPEN.
IMBALANCE (R185): a member that has deviated for DIAG_T_CHECK is reported once. While the bank's reference buffer is off, no check of the channel changes
anything (R241). -/
def Obligations.StallOpenAndImbalance : Prop :=
  (∀ (s : State) (ch : Nat) (g : Rat), clocked s = true → ch < 64 → bankReleased s ch = false → (vleaf s (slotOf s ch)).st = .ramp
      → (vleaf s (slotOf s ch)).ramp.stall = true →
      ch ∈ liveOf s (slotOf s ch) → (leafOf s ch).ramp.examined = false → (∀ m ∈ liveOf s (slotOf s ch), (usableMa s m).isSome = true) →
      ((liveOf s (slotOf s ch)).filterMap (usableMa s)).foldl (· + ·) 0 < (soft s (slotOf s ch) fLeakI : Rat) →
      (vleaf s (slotOf s ch)).ramp.stallAt + usGtc (wholeTicks s (soft s (slotOf s ch) fTGate)) ≤ (nodeOf s (gNode ch)).at_ →
      vgs s ch = some g → (leafOf s ch).diag.pending = 0 →
    Does (.stallExamination ch) s fun t =>
      (leafOf t ch).ramp.examined = true
        ∧ (leafOf t ch).diag.pending =
            (if g ≤ 1000 then (if (leafOf s ch).diag.backfeedAtArm = true ∨ (leafOf s ch).diag.shortAtArm = true then 1 else 2)
             else if (soft s (slotOf s ch) fVgsOk : Rat) ≤ g then (if (leafOf s ch).diag.shortAtArm = true then 1 else 4) else 0)
        ∧ LeafOnly s t ch [])
  ∧ (∀ (s : State) (ch : Nat), clocked s = true → ch < 64 → bankReleased s ch = false → openNow s ch = some true → checkTime s ch ≤ (leafOf s ch).diag.openUs →
      (leafOf s ch).diag.verdict ≠ 3 → (leafOf s ch).diag.verdict ≠ 1 →
    Does (.openCheck ch) s fun t =>
      (leafOf t ch).diag.pending = (leafOf s ch).diag.pending ||| (if (leafOf s ch).diag.shortAtArm = true then 1 else 4) ∧ LeafOnly s t ch [])
  ∧ (∀ (s : State) (ch : Nat), clocked s = true → ch < 64 → bankReleased s ch = false → (leafOf s ch).diag.imbRaised = false
      → checkTime s ch ≤ (leafOf s ch).diag.imbUs →
      0 < (leafOf s ch).diag.imbUs →
    Does (.imbalance ch) s fun t =>
      (leafOf t ch).diag.imbRaised = true ∧ (leafOf t ch).diag.imbPct = satN 255 (leafOf s ch).diag.imbMax
        ∧ LeafOnly s t ch (if (soft s ch fReportEn).testBit 2 = true
            then [pressEvent s (eventUnit s ch) evImbalance (w32 ch) (w32 (leafOf s ch).diag.imbMax) 0] else []))
  ∧ (∀ (s : State) (ch : Nat), clocked s = true → ch < 64 → bankReleased s ch = true →
      Does (.stallExamination ch) s (fun t => t = s) ∧ Does (.openCheck ch) s (fun t => t = s) ∧ Does (.imbalance ch) s (fun t => t = s)
        ∧ Does (.offStateCheck ch) s (fun t => t = s) ∧ Does (.backfeedEnd ch) s (fun t => t = s) ∧ Does (.gateCheck ch) s (fun t => t = s))
/-! ## The drive stage -/

/-- TRIP_CELL_FIRE and CYCLE_TRIP (R46, R90, R100, R272): a slot trip cell that is not blanked sets the TRIP latch of every driver of its unit and sinks their
gates FAST, with no clock and no change of state; on a pulse generator that switches it ends the on-time as a cycle trip. A blanked cell waits; the cell of a
channel that is not its hoop's slot only latches; one that latches while the live drivers have held off for 1 ms with no episode open is noted for step 1
(R171). -/
def Obligations.TripCellSinksItsUnit : Prop :=
  (∀ (s : State) (ch : Nat), s.power.booting = false → ch < 64 → cellPowered s ch = true →
    Does (.tripCellFire ch) s fun t =>
      (cellOf t ch).level = true
        ∧ (∀ v, { leafOf t v with led := (leafOf s v).led } =
            if slotOf s ch = ch ∧ blanked s ch = false ∧ v ∈ groupOf s ch then
              { leafOf s v with tripLatch := true, gate := sinkMode (leafKind v) (leafOf s v).env.clamp true (leafOf s v).gate,
                                diag := if heldOff s ch = true ∧ v = ch then { (leafOf s v).diag with trippedOff := true } else (leafOf s v).diag,
                                pwm := if switching (vleaf s ch) = true ∧ (vleaf s ch).st.conducting = true ∧ v = ch
                                       then { (leafOf s v).pwm with cycleTrip := true, gateOn := false, offDue := false } else (leafOf s v).pwm }
            else leafOf s v)
        ∧ (cellOf t ch).latch = (if slotOf s ch = ch ∧ blanked s ch = true then (cellOf s ch).latch else true)
        ∧ t = { s with press := { s.press with leaves := t.press.leaves }, cmp := t.cmp })
  ∧ (∀ (s : State) (ch : Nat), s.power.booting = false → ch < 64 → cellPowered s ch = true → slotOf s ch = ch → switching (vleaf s ch) = true →
      (vleaf s ch).st.conducting = true → blanked s ch = false →
    Does (.cycleTrip ch) s fun t =>
      (leafOf t ch).pwm.cycleTrip = true ∧ (leafOf t ch).pwm.gateOn = false ∧ (∀ m ∈ groupOf s ch, (leafOf t m).tripLatch = true)
        ∧ (∀ v, (leafOf t v).st = (leafOf s v).st)
        ∧ t = { s with press := { s.press with leaves := t.press.leaves }, cmp := t.cmp })

/-- PWM_PERIOD_START (R92, R93, R94, R98): at a period start the stored setting takes effect, the substate is PWM, and the gate is on unless the duty is 0 or
the on-time is below DRV_PWM_MIN_ON; it has a turn-off edge to come unless it is held on because its off-time would be too short (R93); a period whose on-time
or off-time is too short counts as skipped. A generator whose setting was withdrawn stops there, and the unit returns to DC, its gate at ENHANCE unless a
latch or a limit loop holds it. A trip cell still asserted at a period start may act at once (R273), which the clauses about the gate leave out. PWM_OFF_EDGE
(R88, R91, R94): N_on after the period start, where this period has a turn-off edge, the gate is turned off, by a SLEW sink, or FAST where the slot's record
says CLAMP, the same on every member; a latched driver and a FAST sink stay as they are. CMP_BLANK_END (R272): the blanking of the slot's trip cell and of its
members' output cells ends; a trip cell still asserted then acts as if it had just crossed, an output cell still asserted latches. GATE_SINK_DONE (R75, R199):
a sink ends in HOLD_OFF, and a feed's reverse gate is off. -/
def Obligations.PwmPeriodsAndEdges : Prop :=
  (∀ (s : State) (ch t0 : Nat), clocked s = true → ch < 64 → Leads s ch → ((vleaf s ch).st = .on ∨ (vleaf s ch).st = .limit) →
       ((leafOf s ch).pwm.set = true ∨ (leafOf s ch).pwm.running = true) → periodDue s (vleaf s ch) = some t0 →
     Does (.pwmPeriodStart ch) s fun t =>
       (leafOf t ch).pwm.startAt = t0
         ∧ (if (leafOf s ch).pwm.set = true then
             (vleaf t ch).sub = 1 ∧ (leafOf t ch).pwm.running = true ∧ (leafOf t ch).pwm.curPeriod = (leafOf s ch).pwm.period
               ∧ (leafOf t ch).pwm.curDuty = (leafOf s ch).pwm.duty
               ∧ ((cellOf s ch).level = false → (leafOf t ch).pwm.gateOn = decide (¬ ((leafOf s ch).pwm.duty = 0 ∨ ((leafOf s ch).pwm.duty ≠ 65535
                   ∧ nOn s (leafOf s ch).pwm.period (leafOf s ch).pwm.duty < soft s ch fPwmMinOn * 40))))
               ∧ ((cellOf s ch).level = false → (leafOf t ch).pwm.offDue = decide ((leafOf s ch).pwm.duty ≠ 0 ∧ (leafOf s ch).pwm.duty ≠ 65535
                   ∧ ¬ nOn s (leafOf s ch).pwm.period (leafOf s ch).pwm.duty < soft s ch fPwmMinOn * 40
                   ∧ ¬ (leafOf s ch).pwm.period - nOn s (leafOf s ch).pwm.period (leafOf s ch).pwm.duty < soft s ch fPwmMinOn * 40))
               ∧ (leafOf t ch).pwm.skipped =
                   (if (leafOf s ch).pwm.duty ≠ 0 ∧ (leafOf s ch).pwm.duty ≠ 65535
                       ∧ (nOn s (leafOf s ch).pwm.period (leafOf s ch).pwm.duty < soft s ch fPwmMinOn * 40
                         ∨ (leafOf s ch).pwm.period - nOn s (leafOf s ch).pwm.period (leafOf s ch).pwm.duty < soft s ch fPwmMinOn * 40)
                    then satN 4294967295 ((leafOf s ch).pwm.skipped + 1) else (leafOf s ch).pwm.skipped)
            else (vleaf t ch).sub = 0 ∧ (leafOf t ch).pwm.running = false
               ∧ ((cellOf s ch).level = false → (leafOf s ch).tripLatch = false → (leafOf s ch).tripClock = false → (leafOf s ch).offLatch = false
                   → ((vleaf s ch).st = .on ∨ (vleaf s ch).loop = 0) → (vleaf t ch).gate = .enhance))
         ∧ t = { s with press := { s.press with leaves := t.press.leaves, evq := t.press.evq }, cmp := t.cmp, meas := t.meas })
  ∧ (∀ (s : State) (ch t0 : Nat), clocked s = true → ch < 64 → Leads s ch → ((vleaf s ch).st = .on ∨ (vleaf s ch).st = .limit) →
      (leafOf s ch).pwm.set = true → periodDue s (vleaf s ch) = some t0 →
    Does (.pwmPeriodStart ch) s fun t =>
      (leafOf t ch).pwm.startAt = t0 ∧ (leafOf t ch).pwm.running = true ∧ (vleaf t ch).sub = 1 ∧ (leafOf t ch).pwm.curPeriod = (leafOf s ch).pwm.period
        ∧ (leafOf t ch).pwm.curDuty = (leafOf s ch).pwm.duty)
  ∧ (∀ (s : State) (ch : Nat), clocked s = true → ch < 64 → Leads s ch → switching (vleaf s ch) = true → (vleaf s ch).pwm.gateOn = true →
      (vleaf s ch).pwm.offDue = true → edgeAt s (vleaf s ch).pwm.startAt + nOn s (vleaf s ch).pwm.curPeriod (vleaf s ch).pwm.curDuty ≤ s.time.gtc + tickGtc s →
    Does (.pwmOffEdge ch) s fun t =>
      (leafOf t ch).pwm.gateOn = false
        ∧ (∀ m ∈ liveOf s ch, (leafOf t m).gate =
            if (leafOf s m).tripLatch = true ∨ (leafOf s m).offLatch = true then (leafOf s m).gate
            else sinkMode .channel (leafOf s ch).env.clamp false (leafOf s m).gate)
        ∧ (∀ v, (leafOf t v).st = (leafOf s v).st) ∧ LeavesOnly s t ∧ t.press.evq = s.press.evq)
  ∧ (∀ (s : State) (ch : Nat), clocked s = true → ch < 64 → (leafOf s ch).pwm.blankUntil ≤ s.time.gtc + tickGtc s →
    Does (.cmpBlankEnd ch) s fun t =>
      (leafOf t ch).pwm.blankUntil = 0
        ∧ (∀ m ∈ groupOf s ch, ∀ c, c = 64 + m ∨ c = 128 + m → (cellOf t c).blanked = false
            ∧ (cellOf t c).latch = ((cellOf s c).latch || ((cellOf s c).blanked && (cellOf s c).level)))
        ∧ ((cellOf s ch).blanked = true → (cellOf s ch).level = true → slotOf s ch = ch → ∀ m ∈ groupOf s ch, (leafOf t m).tripLatch = true)
        ∧ ((cellOf s ch).blanked = false → LeafOnly { s with cmp := t.cmp } t ch [])
        ∧ t = { s with press := { s.press with leaves := t.press.leaves }, cmp := t.cmp })
  ∧ (∀ (s : State) (u : Nat), u < 71 → ((leafOf s u).gate = .sinkSlew ∨ (leafOf s u).gate = .sinkFast) →
    Does (.gateSinkDone u) s fun t =>
      (leafOf t u).gate = .holdOff ∧ (leafOf t u).gateR = (if leafKind u = .feed then false else (leafOf s u).gateR)
        ∧ (leafOf t u).st = (leafOf s u).st ∧ LeafOnly s t u [])

/-! ## Feeds -/

/-- A mask fires (R136, R205): outside PARK the OFF latch of every leaf of a selected class is set and its gate sinks FAST, with the lowest trigger that fired
noted; no state changes. -/
def Obligations.ShedGatesFireTheirMask : Prop :=
  ∀ (s : State) (k v : Nat), v < 71 →
    leafOf (shedFire s k) v =
      (if s.power.mode ≠ .park ∧ selects s k (leafOf s v).env.shedClass = true then
        { leafOf s v with offLatch := true, offShed := true, shedBy := if (leafOf s v).offShed = true then Nat.min (leafOf s v).shedBy k else k,
                          gate := sinkMode (leafKind v) (leafOf s v).env.clamp true (leafOf s v).gate }
       else leafOf s v)
      ∧ LeavesOnly s (shedFire s k) ∧ (shedFire s k).press.evq = s.press.evq

/-- FEED_SHORT (R199, R203): the short-circuit cell latches, both gates sink FAST with no clock, the TRIP latch sets, and a conducting feed's loss condition
begins; the state is left to the tick. FEED_LOSS (R203): a set latch or VIN undervoltage begins the loss condition of a conducting feed, whose mask fires. -/
def Obligations.FeedShortAndLoss : Prop :=
  (∀ (s : State) (f : Nat), s.power.booting = false → f < 4 → cellPowered s (64 + f) = true →
    Does (.feedShort f) s fun t =>
      (cellOf t (256 + f)).level = true ∧ (cellOf t (256 + f)).latch = true
        ∧ (leafOf t (64 + f)).tripLatch = true ∧ (leafOf t (64 + f)).gateR = false ∧ (leafOf t (64 + f)).st = (leafOf s (64 + f)).st
        ∧ (leafOf t (64 + f)).gate = sinkMode .feed false true (leafOf s (64 + f)).gate
        ∧ (leafOf t (64 + f)).lost = ((leafOf s (64 + f)).lost || (leafOf s (64 + f)).st.conducting)
        ∧ t = { s with press := { s.press with leaves := t.press.leaves }, cmp := t.cmp })
  ∧ (∀ (s : State) (f : Nat), s.power.booting = false → f < 4 → (leafOf s (64 + f)).st.conducting = true → (leafOf s (64 + f)).lost = false →
      ((leafOf s (64 + f)).tripLatch = true ∨ (leafOf s (64 + f)).offLatch = true ∨ vinUv s (64 + f) = true) →
    Does (.feedLoss f) s fun t =>
      (leafOf t (64 + f)).lost = true ∧ (leafOf t (64 + f)).st = (leafOf s (64 + f)).st
        ∧ (∀ v, v < 71 → s.power.mode ≠ .park → selects s f (leafOf s v).env.shedClass = true → (leafOf t v).offLatch = true)
        ∧ (∀ v, v ≠ 64 + f → selects s f (leafOf s v).env.shedClass = false → leafOf t v = leafOf s v)
        ∧ LeavesOnly s t ∧ t.press.evq = s.press.evq)

/-- FEED_REVERSE, FEED_REVERSE_RELEASE and FEED_CONDUCT (R195, R197, R198, R276): the reverse cell's crossing turns the reverse gate off, sets RISE, counts
and raises FEED_REVERSE at the tick that reads it (R23); its release sets FALL and counts; V_FWD above FEED_V_ON with the cell released turns the reverse gate
of a feed in RAMP, ON or LIMIT on. None changes the state, nor, between two boundaries, the substate: at a boundary a feed in ON is CONDUCTING (substate 1)
where its reverse gate is driven, else BLOCKING (substate 0). FEED_VIN_OV (R199, R268): the crossing is raised, and with OV_OFF sets the OFF latch and sinks
both gates; while the cell holds its output after a new code, nothing latches. T_RECOVER_EXPIRY (R204): T_RECOVER of ON with VIN in its window ends the loss
condition. -/
def Obligations.FeedsBlockAndRecover : Prop :=
  (∀ (s : State) (f : Nat), s.power.booting = false → f < 4 → cellPowered s (64 + f) = true →
      (cellOf s (260 + f)).level = false →
    Does (.feedReverse f) s fun t =>
      (cellOf t (260 + f)).level = true ∧ (Tbl.get {} t.cmp.edges f).rise = true
        ∧ (Tbl.get {} t.cmp.edges f).count = satN 255 ((Tbl.get {} s.cmp.edges f).count + 1)
        ∧ (leafOf t (64 + f)).gateR = false ∧ (leafOf t (64 + f)).st = (leafOf s (64 + f)).st
        ∧ (leafOf t (64 + f)).sub = (leafOf s (64 + f)).sub
        ∧ (∀ v, v ≠ 64 + f → leafOf t v = leafOf s v)
        ∧ ∃ p0, t = { s with press := { s.press with leaves := t.press.leaves, cellq := s.press.cellq ++ [pressEvent s (64 + f) evFeedReverse p0 0 0] },
                             cmp := t.cmp })
  ∧ (∀ (s : State) (f : Nat), s.power.booting = false → f < 4 → cellPowered s (64 + f) = true → (cellOf s (260 + f)).level = true →
    Does (.feedReverseRelease f) s fun t =>
      (cellOf t (260 + f)).level = false ∧ (Tbl.get {} t.cmp.edges f).fall = true
        ∧ (Tbl.get {} t.cmp.edges f).count = satN 255 ((Tbl.get {} s.cmp.edges f).count + 1) ∧ t = { s with cmp := t.cmp })
  ∧ (∀ (s : State) (f : Nat), s.power.booting = false → f < 4 → cellPowered s (64 + f) = true → (leafOf s (64 + f)).st.conducting = true →
      (leafOf s (64 + f)).tripLatch = false → (leafOf s (64 + f)).offLatch = false → (cellOf s (260 + f)).level = false →
    Does (.feedConduct f) s fun t =>
      (leafOf t (64 + f)).gateR = true ∧ (leafOf t (64 + f)).sub = (leafOf s (64 + f)).sub ∧ (leafOf t (64 + f)).st = (leafOf s (64 + f)).st
        ∧ LeafOnly { s with cmp := t.cmp } t (64 + f) [])
  ∧ (∀ (s : State) (f : Nat), f < 4 → (leafOf s (64 + f)).st = .on →
      (leafOf (feedSub s (64 + f)) (64 + f)).sub = (if (leafOf s (64 + f)).gateR = true then 1 else 0) ∧ LeafOnly s (feedSub s (64 + f)) (64 + f) [])
  ∧ (∀ (s : State) (f : Nat), s.power.booting = false → f < 4 → cellPowered s (64 + f) = true → heldNow s (268 + f) = true →
    Does (.feedVinOv f) s fun t => (cellOf t (268 + f)).latch = (cellOf s (268 + f)).latch ∧ (cellOf t (268 + f)).level = (cellOf s (268 + f)).level
        ∧ t = { s with cmp := t.cmp })
  ∧ (∀ (s : State) (f : Nat), s.power.booting = false → f < 4 → cellPowered s (64 + f) = true → heldNow s (268 + f) = false →
    Does (.feedVinOv f) s fun t =>
      (cellOf t (268 + f)).latch = true
        ∧ (∃ p0, t.press.cellq = s.press.cellq ++ [pressEvent s (64 + f) evFeedVinOv p0 0 0])
        ∧ (if (feedParams s (64 + f)).ovOff = true then
            (leafOf t (64 + f)).offLatch = true ∧ (leafOf t (64 + f)).gateR = false ∧ (leafOf t (64 + f)).st = (leafOf s (64 + f)).st
              ∧ (leafOf t (64 + f)).lost = ((leafOf s (64 + f)).lost || (leafOf s (64 + f)).st.conducting)
           else ∀ v, leafOf t v = leafOf s v)
        ∧ t = { s with press := { s.press with leaves := t.press.leaves, cellq := t.press.cellq }, cmp := t.cmp })
  ∧ (∀ (s : State) (f : Nat), clocked s = true → f < 4 → (leafOf s (64 + f)).lost = true → (leafOf s (64 + f)).st = .on →
      (feedParams s (64 + f)).tRecover * 1000 ≤ (leafOf s (64 + f)).recoverUs →
    Does (.tRecoverExpiry f) s fun t =>
      leafOf t (64 + f) = { leafOf s (64 + f) with lost := false, recoverUs := 0 } ∧ LeafOnly s t (64 + f) [])

/-! ## Seats, cross-trip, HOLD, regulators -/

/-- HOLD_RELEASE (R211): in ON, with the store above the bus, HOLD enters RELEASING (substate 2), trigger 4 stands, E_rel restarts, the charger stops, and
HOLD_RELEASE is raised. HOLD_RELEASE_END (R213): at the energy cap, or where a feed has taken over or the store is spent for 1 ms, the release ends; at the
cap the switch sinks FAST. -/
def Obligations.HoldReleases : Prop :=
  (∀ (s : State), s.power.booting = false → (leafOf s 70).st = .on → (leafOf s 70).sub ≠ 2 → holdBusMv s < mv s 216 →
    Does .holdRelease s fun t =>
      t.press.holdTrigger = true ∧ t.press.hold.eRel = 0 ∧ t.press.hold.iRef = 0 ∧ (leafOf t 70).sub = 2 ∧ (leafOf t 70).st = .on
        ∧ (∃ p0 p1, t.press.cellq = s.press.cellq ++ [pressEvent s 71 evHoldRelease p0 p1 0])
        ∧ (∀ v, v < 71 → s.power.mode ≠ .park → selects s 4 (leafOf s v).env.shedClass = true → (leafOf t v).offLatch = true)
        ∧ PressOnly s t)
  ∧ (∀ (s : State), s.power.booting = false → s.press.holdTrigger = true → parallelOf s 70 = none →
      (((holdParams s).eReleaseMax : Rat) ≤ s.press.hold.eRel ∨ 1000 ≤ s.press.hold.endUs) →
    Does .holdReleaseEnd s fun t =>
      t.press.holdTrigger = false ∧ (leafOf t 70).sub = 0
        ∧ (leafOf t 70).gate = (if ((holdParams s).eReleaseMax : Rat) ≤ s.press.hold.eRel then .sinkFast else .holdOff)
        ∧ (leafOf t 70).st = (if (leafOf s 70).st = .limit then .on else (leafOf s 70).st)
        ∧ (∀ v, v ≠ 70 → leafOf t v = leafOf s v) ∧ PressOnly s t)

/-- REG_OV (R218): an output above OV_PM holds the regulator's gates low and is raised. REGULATOR_POWER_CYCLE (R220): the off time past, the regulators held
off are started again, those that a start would be refused excepted, and the time is noted. FALLBACK_RECYCLE (R333): with HOST_LOST still standing 30 s
after that, and fewer than three cycles, a further cycle begins: the regulators in ARM to LIMIT are off. -/
def Obligations.RegulatorsProtectAndCycle : Prop :=
  (∀ (s : State) (r : Nat), s.power.booting = false → r < 2 →
    Does (.regOv r) s fun t =>
      leafOf t (68 + r) = { leafOf s (68 + r) with ovHold := true } ∧ (∀ v, v ≠ 68 + r → leafOf t v = leafOf s v)
        ∧ ∃ p0, t = { s with press := { s.press with leaves := t.press.leaves, cellq := s.press.cellq ++ [pressEvent s (68 + r) evRegOv p0 0 0] } })
  ∧ (∀ (s : State) (rs : List Nat), clocked s = true → s.press.regCycle = some (0, rs) → rs.Nodup →
      (∀ u ∈ rs, (u = 68 ∨ u = 69) ∧ parallelOf s u = none) →
    Does .regulatorPowerCycle s fun t =>
      t.press.regCycle = none ∧ t.link.regRestartAt = some s.time.gtc
        ∧ (∀ u ∈ rs, (leafOf s u).st = .off → startRefusal s u = none → (leafOf t u).st = .arm ∧ (leafOf t u).faultT = 0)
        ∧ (∀ u ∈ rs, ((leafOf s u).st ≠ .off ∨ startRefusal s u ≠ none) → leafOf t u = leafOf s u)
        ∧ (∀ v, v ∉ rs → leafOf t v = leafOf s v)
        ∧ t = { s with press := { s.press with leaves := t.press.leaves, regCycle := none }, cmp := t.cmp, meas := t.meas,
                       link := { s.link with regRestartAt := some s.time.gtc } })
  ∧ (∀ (s : State) (t0 : Nat), clocked s = true → s.link.regRestartAt = some t0 → s.link.hostLost = true → s.link.regCycles < 3 →
      t0 + 12000000000 ≤ s.time.gtc → parallelOf s 68 = none → parallelOf s 69 = none →
    Does .fallbackRecycle s fun t =>
      t.link.regCycles = s.link.regCycles + 1 ∧ t.link.regRestartAt = none ∧ t.press.regCycle.isSome = true
        ∧ (∀ u, u = 68 ∨ u = 69 → (leafOf t u).st = (if (leafOf s u).st.active = true then .off else (leafOf s u).st))
        ∧ ∀ v, v ≠ 68 → v ≠ 69 → leafOf t v = leafOf s v)
/-! ## Clocks, supplies, resets, boot, PARK -/

/-- CLOCK_FAIL (R18, R91, R438), in RUN and DOZE and at a wake from PARK whose PLL does not lock: every leaf of a shed class other than 0 has its TRIP latch
set for good and its gate sunk FAST, with no change of state; leaves of class 0 and everything else stay as they are, and the flag of the always-on domain is
set. No clocked row acts from then on. BROWNOUT_WARNING and BROWNOUT_RECOVERY (R276, R404, R451, R452): the warning begins, its edge is counted where SUP1 was
not asserted already, and where Rind can write, the open record is committed and the counters saved in the next slot (R400); the link falls to its narrowest.
It ends, its edge flags read and cleared, with the link at its full speed in RUN. -/
def Obligations.ClocksAndSuppliesFail : Prop :=
  (∀ (s : State), s.power.booting = false → s.power.clockFail = false →
    ∃ t, exec .clockFail s = .next t
      ∧ (∀ u, leafOf t u =
          if u < 71 ∧ (leafOf s u).env.shedClass ≠ 0 then
            { leafOf s u with tripLatch := true, tripClock := true, gate := sinkMode (leafKind u) (leafOf s u).env.clamp true (leafOf s u).gate, gateR := false }
          else leafOf s u)
      ∧ t.power = { s.power with clockFail := true, clockFlag := true } ∧ clocked t = false
      ∧ t = { s with press := { s.press with leaves := t.press.leaves }, power := t.power })
  ∧ (∀ (s : State) (inp : TickInputs) (u : Nat) (x : WakeInputs), s.power.clockFail = true → u < 71 →
      exec (.protectionTick inp) s = .next s ∧ exec (.rampDone u) s = .next s ∧ exec (.wake x) s = .next s)
  ∧ (∀ (s : State), clocked s = true → s.power.brownout = false →
    Does .brownoutWarning s fun t =>
      t.power.brownout = true ∧ (cellOf t 341).level = true
        ∧ Tbl.get {} t.cmp.edges 5 =
            (if (cellOf s 341).level = true then Tbl.get {} s.cmp.edges 5
             else { Tbl.get {} s.cmp.edges 5 with rise := true, count := satN 255 ((Tbl.get {} s.cmp.edges 5).count + 1) })
        ∧ (s.fw.rind = .running → t.cave.open_ = none
            ∧ Tbl.find t.nvm.counters ((newestCounter s.nvm).elim 0 fun p => (p.1 + 1) % 16)
                = some (counterBytes s.power.opsec s.power.cycle ((newestCounter s.nvm).elim 1 fun p => writeNo p.2 + 1)))
        ∧ (s.link.up = true → t.link.speed = 1 ∧ t.link.width = 1)
        ∧ t.press = s.press ∧ t.meas = s.meas ∧ t.time = s.time ∧ t.fw = s.fw)
  ∧ (∀ (s : State) (v d : Nat), clocked s = true → s.power.brownout = true → v < 4294967296 → d < 4294967296 → s.bus.held = none → s.fw.commitDue = false →
    Does (.brownoutRecovery v d) s fun t =>
      t.power.brownout = false ∧ (Tbl.get {} t.cmp.edges 5).rise = false ∧ (Tbl.get {} t.cmp.edges 5).fall = false ∧ (Tbl.get {} t.cmp.edges 5).count = 0
        ∧ t.press = s.press ∧ t.time = s.time ∧ t.nvm = s.nvm)

/-- SUPPLY_RESET, POWER_ON_RESET and RST_L (R32, R401, R454, R455, R457): every leaf, hoop, ring and register is at its reset value, but that a channel's, a
feed's or HOLD's gate that is not held off sinks FAST, and the device is held before BOOT; the non-volatile memories stand. The cause is 1, 0 and 2. RST_L
keeps the retention region with the tiles below 512, OPSEC, CYCLE and the refusals of the debug port; a pulse under 200 ns does nothing, and one of 200 ns to
1 µs resets or does nothing. -/
def Obligations.ResetsClearTheDevice : Prop :=
  (∀ (s : State), ∃ t, exec .supplyReset s = .next t ∧ t.power.resetCause = 1 ∧ t.power.booting = true ∧ (∀ u, leafOf t u = if (u < 68 ∨ u = 70)
      ∧ (leafOf s u).gate ≠ .holdOff then { gate := .sinkFast } else {}) ∧ t.press.hoops = []
      ∧ t.press.gens = [] ∧ t.link.rings = [] ∧ t.link.flights = [] ∧ t.router = {} ∧ t.meas = {} ∧ t.vat = {} ∧ t.time = {} ∧ t.bus = {} ∧ t.nvm = s.nvm
      ∧ t.fw.rind = .inReset ∧ t.fw.paste = .stopped ∧ t.pending = s.pending)
  ∧ (∀ (s : State), ∃ t, exec .powerOnReset s = .next t ∧ t.power = {} ∧ t.press = {} ∧ t.cmp = {} ∧ t.link = { hostMem := s.link.hostMem } ∧ t.router = {}
      ∧ t.meas = {} ∧ t.vat = {} ∧ t.time = {} ∧ t.bus = {} ∧ t.nvm = s.nvm ∧ t.fw.rind = .inReset ∧ t.fw.paste = .stopped ∧ t.pending = s.pending)
  ∧ (∀ (s : State) (w : Nat), 1000 ≤ w → ∃ t, exec (.rstL w) s = .next t ∧ t.power.resetCause = 2 ∧ t.power.booting = true ∧ (∀ u, leafOf t u = if (u < 68
      ∨ u = 70) ∧ (leafOf s u).gate ≠ .holdOff then { gate := .sinkFast } else {})
      ∧ t.press.hoops = [] ∧ t.link.rings = [] ∧ t.link.flights = [] ∧ t.meas = {} ∧ t.router = {} ∧ t.nvm = s.nvm
      ∧ t.vat.retained = s.vat.retained ∧ t.vat.retentionHalf = s.vat.retentionHalf ∧ t.power.opsec = s.power.opsec ∧ t.power.cycle = s.power.cycle
          ∧ t.fw.debugRefusals = s.fw.debugRefusals
      ∧ (∀ a, a < 262144 → loadByte t.vat.mem a = loadByte s.vat.mem a) ∧ (∀ a, 262144 ≤ a → loadByte t.vat.mem a = 0) ∧ t.pending = s.pending)
  ∧ (∀ (s : State) (w : Nat), w < 200 → exec (.rstL w) s = .next s)
  ∧ (∀ (s : State) (w : Nat), 200 ≤ w → w < 1000 →
      exec (.rstL w) s = .next { s with draws := s.draws + 1 } ∨ exec (.rstL w) s = exec (.rstL 1000) { s with draws := s.draws + 1 })

/-- BOOT (R418, R419, R420, R457), once REFCLK is there where it is the reference: the device leaves reset; where a Rind image verifies, Rind runs from its
slot, which is the selected one if that verifies; where none does, Rind is absent. A boot that still waits for REFCLK does nothing. BANK_BOOT_ON (R225): with
Rind running from a profile and the bank's supply in its normal range, each boot-on unit of the bank not yet started is started: one in OFF that nothing holds
back, and without a damaged member, enters ARM; one that is not in OFF stays as it is. -/
def Obligations.DeviceBoots : Prop :=
  (∀ (s : State) (x : BootInputs), s.power.booting = true → (Instr.boot x).wf = true → (x.clkRef = true → x.refValid = true) →
    Does (.boot x) s fun t =>
      t.power.booting = false ∧ t.fw.clkRef = x.clkRef ∧ t.fw.strap0 = x.strap0 ∧ t.fw.strap1 = x.strap1 ∧ t.fw.addrCode = x.addrCode
        ∧ (match rindChoice s with
           | some k => t.fw.rind = .running ∧ t.fw.rindSlot = k ∧ ((rindImage s s.nvm.rindSel).isSome = true → k = s.nvm.rindSel)
           | none => t.fw.rind = .absent ∧ t.fw.paste = s.fw.paste))
  ∧ (∀ (s : State) (x : BootInputs), (Instr.boot x).wf = true → (s.power.booting = false ∨ (x.clkRef = true ∧ x.refValid = false)) → exec (.boot x) s = .next s)
  ∧ (∀ (s : State) (x : BootInputs) (k : Nat), s.power.booting = true → (Instr.boot x).wf = true → (x.clkRef = true → x.refValid = true)
      → rindChoice s = some k →
    Does (.boot x) s fun t => t.power.booting = false ∧ t.fw.rind = .running ∧ t.fw.rindSlot = k)
  ∧ (∀ (s : State) (b : Nat), clocked s = true → b < 4 → s.fw.rind = .running → s.fw.profile.isSome = true → bankInRange s b = true →
       (∀ u ∈ bankBootUnits s b, Leads s u) →
       (bankBootUnits s b).Pairwise (fun u w => ∀ m ∈ groupOf s u, m ∉ groupOf s w) →
     Does (.bankBootOn b) s fun t =>
       (∀ u ∈ bankBootUnits s b, (leafOf t u).bootDone = true
         ∧ ((vleaf s u).st = .off → startRefusal s u = none → damagedMember s u = false → (vleaf t u).st = .arm)
         ∧ ((vleaf s u).st ≠ .off → (vleaf t u).st = (vleaf s u).st))
       ∧ (∀ v, (∀ u ∈ bankBootUnits s b, v ∉ groupOf s u) → leafOf t v = leafOf s v))
  ∧ (∀ (s : State) (b u : Nat), clocked s = true → b < 4 → s.fw.rind = .running → s.fw.profile.isSome = true → bankInRange s b = true →
      bankBootUnits s b = [u] → Leads s u → (vleaf s u).st = .off → startRefusal s u = none → damagedMember s u = false →
    Does (.bankBootOn b) s fun t => (vleaf t u).st = .arm ∧ (leafOf t u).bootDone = true)

/-- PME_TURN_OFF (R442, R443, R457) of a device that is park pending with its link up: the device is in PARK, Rind stopped, the link down with the function in
D3hot; a park-kept unit keeps its state, its retry cancelled where it waits in COOL (R369); any other leaf that waited in COOL is OFF. No transfer, no paused
bulk session and no reference to a tile above 511 survives (R304). WAKE (R304, R388, R445, R446, R447), by a source that is present: of the sources present
the one with the lowest code is reported, WAKE_L asserted, Rind runs, and the first tick in DOZE has been run: the GTC has advanced by the time in PARK,
12,207.03125 counts a period, and then to the next multiple of 3,200. What waits in the Press is of the kinds that can be scheduled (R340). -/
def Obligations.ParkAndWake : Prop :=
  (∀ (s : State), clocked s = true → s.power.parkPending = true → s.link.up = true → s.fw.rind = .running →
     Does .pmeTurnOff s fun t =>
       t.power.mode = .park ∧ t.power.parkPending = false ∧ t.fw.rind = .parked ∧ t.link.up = false ∧ t.time.gtc = s.time.gtc
         ∧ (s.fw.paste ≠ .down → t.fw.paste = .stopped)
         ∧ t.link.d3hot = true ∧ t.link.xfers = [] ∧ t.bus.bulk = none ∧ (∀ h, ∀ r ∈ refsOf t h, r.1 < 512)
         ∧ (∀ u, Solo s u → (leafOf s u).env.parkKeep = true → (leafOf s u).st = .cool → (leafOf t u).retryCancelled = true)
         ∧ (∀ u, Solo s u → (leafOf t u).st = (if (leafOf s u).env.parkKeep = false ∧ (leafOf s u).st = .cool then .off else (leafOf s u).st))
         ∧ (∀ u, u < 71 → (leafOf t u).env = (leafOf s u).env))
  ∧ (∀ (s : State) (x : WakeInputs), (Instr.wake x).wf = true → s.power.mode = .park → s.power.booting = false → s.power.clockFail = false
      → s.fw.rind = .parked → s.power.next = none →
       wakePresent x s = true → (∀ f ∈ s.link.flights, f.op.schedulable = true) →
     Does (.wake x) s fun t =>
       t.power.mode = .doze ∧ t.power.wakeSource ≤ x.code ∧ (x.code ≤ 4 → t.power.wakeSource = x.code) ∧ t.power.wakeL = true ∧ t.fw.rind = .running
         ∧ t.bus.latched &&& 0x0040 = 0x0040
         ∧ t.time.gtc = ((s.time.gtc + periodGtc x.periods) % 18446744073709551616 / 3200 * 3200 + 3200) % 18446744073709551616
         ∧ t.link.allowAt = some t.time.gtc)

/-! ## Firmware, debug port, Vat, Cave, non-volatile memories -/

/-- A failure of a serving Paste, here by PASTE_TRAP, with no handover open and not in the first 2 s of a new image (R424, R425, R426): fewer than five
restarts in 600 s of operating time, this one counted, restart it on its slot; else its other slot is tried once, if it can be started; else Paste is down.
After a restart only commands of the device's own, those that nobody waits for any more and those the Press holds for a TIME stand in the in-flight table: the
rest have been answered (R339). PASTE_FAULT, PASTE_WATCHDOG and PASTE_SELF_CHECK (R14, R296, R424, R426, R428): an access that no window of the core admits,
or a read of a CLOSED tile past the checker, reports its core and tile and fails the Paste image as a trap does, and one that is allowed does nothing; the
watchdog fails it when a running core, in DOZE core 0, stood still at two checks, and else notes which stood still; a passed self-check lets the image serve
and, where the record can be written, commits its floor, if it is the selected one or a handover brought it, and its selector; a failed one fails it. -/
def Obligations.PasteIsSupervised : Prop :=
  (∀ (s : State) (core : Nat), clocked s = true → core < 4 → s.fw.rind = .running → s.fw.paste = .serving → s.fw.handover = none → newPaste s = false →
     Does (.pasteTrap core) s fun t =>
       (if (countRestart s).fw.pasteRestarts.length < 5 then
         t.fw.paste = .serving ∧ t.fw.pasteSlot = s.fw.pasteSlot ∧ t.fw.pasteRestarts = (countRestart s).fw.pasteRestarts
        else if (countRestart s).fw.otherTried = false ∧ pasteUsable s (1 - s.fw.pasteSlot) = true then
         t.fw.paste = .serving ∧ t.fw.pasteSlot = 1 - s.fw.pasteSlot ∧ t.fw.pasteRestarts = [] ∧ t.fw.otherTried = true
        else t.fw.paste = .down)
       ∧ (t.fw.paste = .serving → ∀ g ∈ t.link.flights, g.origin = .firmware ∨ g.origin = .orphan ∨ heldByPress g = true)
       ∧ t.fw.rind = .running ∧ t.time.gtc = s.time.gtc)
  ∧ (∀ (s : State) (core : Nat), clocked s = true → core < 4 → s.fw.rind = .running → s.fw.paste = .serving → s.fw.handover = none → newPaste s = false →
      (countRestart s).fw.pasteRestarts.length < 5 → Does (.pasteTrap core) s fun t => t.fw.paste = .serving ∧ t.fw.pasteSlot = s.fw.pasteSlot)
  ∧ (∀ (s : State) (core tile : Nat) (write checked : Bool), clocked s = true → core < 4 → tile < 8192 → s.fw.paste = .serving →
      ((∀ w ∈ Tbl.get [] s.vat.windows core, ¬ (w.first ≤ tile ∧ tile < w.first + w.count ∧ w.holder = (tagOf s tile).holder ∧ (write = true → w.write = true)))
        ∨ (write = false ∧ checked = false ∧ (tagOf s tile).state = .closed)) →
    Does (.pasteFault core ⟨tile, write, checked⟩) s fun t => t = pasteFails .crash (raise s 118 evPasteFault (w32 core) (w32 tile) 0))
  ∧ (∀ (s : State) (core tile : Nat) (write checked : Bool) (w : Window), clocked s = true → core < 4 → tile < 8192 → w ∈ Tbl.get [] s.vat.windows core →
      w.first ≤ tile → tile < w.first + w.count → w.holder = (tagOf s tile).holder → (write = true → w.write = true) →
      (write = true ∨ checked = true ∨ (tagOf s tile).state ≠ .closed) →
    Does (.pasteFault core ⟨tile, write, checked⟩) s fun t => t = s)
  ∧ (∀ (s : State) (l : List Nat), clocked s = true → (∀ c ∈ l, c < 4) → s.fw.rind = .running → s.fw.paste = .serving →
    Does (.pasteWatchdog l) s fun t =>
      if (∃ c ∈ l, c ∈ s.fw.stalled ∧ (s.power.mode = .doze → c = 0)) then t = pasteFails .watchdog (s.onFw fun f => { f with stalled := watchedCores s l })
      else t = s.onFw fun f => { f with stalled := watchedCores s l })
  ∧ (∀ (s : State), clocked s = true → s.fw.rind = .running → s.power.brownout = false → s.fw.paste = .serving → s.fw.selfCheckDue = true
      → s.fw.restartDue = none →
      s.fw.handover = none →
    Does (.pasteSelfCheck true) s fun t =>
      t.fw = { s.fw with selfCheckDue := false, commitDue := false }
        ∧ t.nvm = { s.nvm with pasteFloor :=
            if s.fw.pasteSlot = s.nvm.pasteSel then Nat.max s.nvm.pasteFloor ((pasteSlotOf s.nvm s.fw.pasteSlot).verified.elim 0 (·.minVersion))
            else s.nvm.pasteFloor })
  ∧ (∀ (s : State) (id k : Nat), clocked s = true → s.fw.rind = .running → s.power.brownout = false → s.fw.paste = .serving → s.fw.selfCheckDue = true →
      s.fw.restartDue = none → s.fw.handover = some (id, k) →
    Does (.pasteSelfCheck true) s fun t =>
      t.fw = { s.fw with selfCheckDue := false, handover := none, commitDue := false } ∧ t.nvm.pasteSel = s.fw.pasteSlot
        ∧ ∀ g ∈ t.link.flights, g.id ≠ id ∨ g.origin = .firmware)
  ∧ (∀ (s : State), clocked s = true → s.fw.paste = .serving → s.fw.selfCheckDue = true → s.fw.restartDue = none →
    Does (.pasteSelfCheck false) s fun t => t = pasteFails .selfCheck s)
  ∧ (∀ (s : State) (l : List Nat) (c : Nat), clocked s = true → (∀ c ∈ l, c < 4) → s.fw.rind = .running → s.fw.paste = .serving → c ∈ l → c ∈ s.fw.stalled
      → (s.power.mode = .doze → c = 0) →
    Does (.pasteWatchdog l) s fun t => t = pasteFails .watchdog (s.onFw fun f => { f with stalled := watchedCores s l }))

/-- RIND_DOMAIN_RESET and RIND_RESTART (R17, R403, R431, R432): the open record waits in staging, what waits for Rind has completed, and the Press runs on; at
its return Rind programs what waited, records the verdicts that have no record yet, each RECORDED where its record has been written and is valid, and holds
the device safe where the reset was the third of the hour. -/
def Obligations.RindResetsAndReturns : Prop :=
  (∀ (s : State), clocked s = true → s.fw.rind = .running →
    Does .rindDomainReset s fun t =>
      t.fw.rind = .domainReset ∧ t.cave.open_ = none ∧ t.cave.clearing = false ∧ t.press = s.press ∧ t.time.gtc = s.time.gtc ∧ t.time.dialogue = none
        ∧ t.meas.calRun = []
        ∧ t.fw.paste = (if s.fw.paste = .handover then .stopped else s.fw.paste)
        ∧ (∀ f ∈ s.link.flights, waitsForRind f = true → ∀ g ∈ t.link.flights, g.id ≠ f.id)
        ∧ ∃ old, t.fw.rindResets = old ++ [s.power.opsec] ∧ ∀ x ∈ old, s.power.opsec < x + 3600)
  ∧ (∀ (s : State), clocked s = true → s.fw.rind = .domainReset → s.fw.restartDue = none → s.fw.commitDue = false → s.power.brownout = false →
    Does .rindRestart s fun t =>
      t.fw.rind = .running ∧ t.cave.staged = [] ∧ t.fw.paste = s.fw.paste
        ∧ t.fw.safeHold = (s.fw.safeHold || decide (3 ≤ t.fw.rindResets.length))
        ∧ (∀ x ∈ t.fw.rindResets, s.power.opsec < x + 3600)
        ∧ ∀ u, u < 71 → (leafOf t u).st = (leafOf s u).st
            ∧ ∀ k, unrecorded s u = some k → s.nvm.locks.length ≤ 57 →
                ∃ r ∈ t.nvm.locks, r.unit = u ∧ r.kind = k ∧ r.verdict = (leafOf s u).diag.verdict
                  ∧ (leafOf t u).diag.recorded = (r.valid && r.verdict != 0))

/-- DEBUG_TOKEN and DEBUG_UNLOCK_EXPIRY (R433, R434): a token that verifies, has not expired and, for scope 2, finds every unit but the regulators off, unlocks
its scope until its expiry; any other is counted, and after three none is looked at. CHALLENGE is renewed after every token. An unlock ends with its expiry. -/
def Obligations.DebugPort : Prop :=
  (∀ (s : State) (token : List Byte), clocked s = true → s.fw.rind = .running → s.fw.debugRefusals < 3 →
    Does (.debugToken token) s fun t =>
      (let ok := tokenVerifies s token = true ∧ s.power.opsec ≤ leAt token 4 4 ∧ (byteAt token 0 = 1 ∨ unitsQuiet s = true)
       (ok → t.fw.debug = some (byteAt token 0, leAt token 4 4) ∧ t.fw.debugRefusals = s.fw.debugRefusals)
        ∧ (¬ ok → t.fw.debug = s.fw.debug ∧ t.fw.debugRefusals = s.fw.debugRefusals + 1))
      ∧ t.fw.nonce = Config.choice s.draws % 18446744073709551616
      ∧ RouterOnly { s with fw := t.fw, draws := s.draws + 2 } t)
  ∧ (∀ (s : State) (token : List Byte), clocked s = true → s.fw.rind = .running → 3 ≤ s.fw.debugRefusals → Does (.debugToken token) s fun t => t = s)
  ∧ (∀ (s : State) (scope e : Nat), clocked s = true → s.fw.rind = .running → s.fw.debug = some (scope, e) →
    Does .debugUnlockExpiry s fun t => t = (if e < s.power.opsec then s.onFw fun f => { f with debug := none } else s))
  ∧ (∀ (s : State) (token : List Byte), clocked s = true → s.fw.rind = .running → s.fw.debugRefusals < 3 →
    Does (.debugToken token) s fun t => t.fw.nonce = Config.choice s.draws % 18446744073709551616 ∧ t.press = s.press)
  ∧ (∀ (s : State) (scope e : Nat), clocked s = true → s.fw.rind = .running → s.fw.debug = some (scope, e) → e < s.power.opsec →
    Does .debugUnlockExpiry s fun t => t = s.onFw fun f => { f with debug := none })

/-- PATROL, VAT_UE and RETENTION_RECORD (R155, R288, R289, R291, R292): the patrol reads one tile a row and counts the single-bit errors; a double-bit error,
or for a CLOSED tile a CRC that does not match, poisons a tile being filled that is no working tile and marks a closed one or one being read, so that its
checked read fails; it leaves a retired one alone. VAT_UE does the same of the tile it names; a working tile of Rind's with such an error returns to FREE or
is retired, its failure counted. The retention record is written to the half that does not hold the latest intact one, which stands, and is then the latest
intact record. MIRROR_REFRESH (R493, R494): at its time all 256 entries are written at once, and the sequence number advances. -/
def Obligations.VatAndMirror : Prop :=
  (∀ (s : State) (x : PatrolFinding), clocked s = true → s.fw.rind = .running → x.double = false →
      (x.crcBad = true → (tagOf s s.vat.patrolAt).state ≠ .closed) →
    Does (.patrol x) s fun t =>
      t = s.onVat fun v => { v with patrolAt := (s.vat.patrolAt + 1) % 8192, ce := satN 4294967295 (s.vat.ce + x.singles) })
  ∧ (∀ (s : State) (x : PatrolFinding), clocked s = true → s.fw.rind = .running →
      (x.double = true ∨ (x.crcBad = true ∧ (tagOf s s.vat.patrolAt).state = .closed)) →
    Does (.patrol x) s fun t =>
      t.vat.patrolAt = (s.vat.patrolAt + 1) % 8192 ∧ t.vat.ce = satN 4294967295 (s.vat.ce + x.singles)
        ∧ (((tagOf s s.vat.patrolAt).state = .closed ∨ (tagOf s s.vat.patrolAt).state = .reading) →
            s.vat.patrolAt ∈ t.vat.bad ∧ (∀ n, tagOf t n = tagOf s n) ∧ t = { s with vat := t.vat })
        ∧ ((tagOf s s.vat.patrolAt).state = .filling → workingTile s s.vat.patrolAt = false →
            tagOf t s.vat.patrolAt = { tagOf s s.vat.patrolAt with poison := true } ∧ t = { s with vat := t.vat })
        ∧ ((tagOf s s.vat.patrolAt).state = .retired → t.vat.bad = s.vat.bad ∧ (∀ n, tagOf t n = tagOf s n) ∧ t = { s with vat := t.vat }))
  ∧ (∀ (s : State) (tile : Nat), clocked s = true → tile < 8192 → workingTile s tile = true → (tagOf s tile).holder = 1 →
    Does (.vatUe tile) s fun t =>
      ((tagOf t tile).state = .free ∨ (tagOf t tile).state = .retired) ∧ Tbl.get 0 t.vat.fails tile = Tbl.get 0 s.vat.fails tile + 1
        ∧ (3 ≤ Tbl.get 0 t.vat.fails tile → (tagOf t tile).state = .retired) ∧ t.press = s.press ∧ t.fw = s.fw ∧ t.time = s.time)
  ∧ (∀ (s : State) (tile : Nat), clocked s = true → tile < 8192 → workingTile s tile = false →
    Does (.vatUe tile) s fun t =>
      ((tagOf s tile).state = .filling → tagOf t tile = { tagOf s tile with poison := true })
        ∧ (((tagOf s tile).state = .closed ∨ (tagOf s tile).state = .reading) → tile ∈ t.vat.bad ∧ tagOf t tile = tagOf s tile)
        ∧ (((tagOf s tile).state = .free ∨ (tagOf s tile).state = .retired) → t.vat = s.vat)
        ∧ t = { s with vat := t.vat, draws := s.draws + 1 })
  ∧ (∀ (s : State), clocked s = true → s.fw.rind = .running →
      (∀ r, Tbl.find s.vat.retained s.vat.retentionHalf = some r → r.at_ + 400000 ≤ s.time.gtc) →
    Does .retentionRecord s fun t =>
      t.vat.retentionHalf = nextHalf s ∧ (∀ h, intactHalf s = some h → h < 2 → t.vat.retentionHalf ≠ h ∧ Tbl.find t.vat.retained h = Tbl.find s.vat.retained h)
        ∧ intactRecord t = some { at_ := s.time.gtc, leaves := s.press.leaves, park := false }
        ∧ t.vat.mem = s.vat.mem ∧ t = { s with vat := t.vat, draws := t.draws }
        ∧ ∀ n, 64 ≤ n → tagOf t n = tagOf s n)
  ∧ (∀ (s : State), clocked s = true → pressRuns s = true → s.time.mirrorDue ≤ s.time.gtc →
     Does .mirrorRefresh s fun t =>
       (∀ u, u < 256 → mirrorRead t u = mirrorEntry s u) ∧ t.time.mirrorSeq = (s.time.mirrorSeq + 1) % 4294967296
         ∧ t.time.mirrorDue = (s.time.gtc / 40000 + 1) * 40000 ∧ t.time.mirrorDue % 40000 = 0 ∧ s.time.gtc < t.time.mirrorDue
         ∧ t = { s with press := { s.press with mirror := t.press.mirror }, time := { s.time with mirrorSeq := t.time.mirrorSeq, mirrorDue := t.time.mirrorDue } })

/-- CAVE_REPEAT_WINDOW, LOG_MEM_FAULT, OPERATING_COUNTER_WRITE and NVM_REFRESH (R400, R402, R403, R407, R408, R516): an open record whose window has ended is
committed; a page that fails is mapped out, and the record that failed stands in another page with its SEQ; after the third failure in a row, or with no page
left, the Cave is DEGRADED; a failure of the failsafe area makes it VOLATILE. The counters are written every 600 s of operation, to the slot after the newest,
with WRITE_NO one higher and their CRC; a refresh pass takes 2,304 rows. -/
def Obligations.CaveAndMemoryRows : Prop :=
  (∀ (s : State) (r : CaveRec), clocked s = true → s.fw.rind = .running → s.power.brownout = false → s.cave.open_ = some r → r.valid = true
      → s.cave.openEnd ≤ s.time.gtc →
    Does .caveRepeatWindow s fun t =>
      t.cave.open_ = none ∧ t.cave.nextSeq = s.cave.nextSeq + 1 ∧ (heldRecs t.cave).getLast? = some { r with seq := s.cave.nextSeq }
        ∧ t = { s with cave := t.cave, bus := t.bus, vat := t.vat, draws := t.draws })
  ∧ (∀ (s : State) (p : Nat) (r : CaveRec), clocked s = true → s.fw.rind = .running → s.power.brownout = false → p < 64 → s.cave.mode = .normal →
      p ∉ s.cave.badPages → s.cave.failRun = 0 → s.cave.badPages.length < 62 → s.cave.page ∉ s.cave.badPages → (∀ e ∈ s.cave.erases, e.2 < 99998) →
      s.cave.faultsDue = [] → s.cave.ring.getLast? = some (p, r) →
    Does (.logMemFault (.page p)) s fun t =>
      t.cave.mode = .normal ∧ t.cave.badPages = s.cave.badPages ++ [p] ∧ t.cave.failRun = 1
        ∧ (∃ q', q' ≠ p ∧ (q', r) ∈ t.cave.ring) ∧ RouterOnly s t)
  ∧ (∀ (s : State) (p : Nat), clocked s = true → s.fw.rind = .running → p < 64 → s.cave.mode = .normal → p ∉ s.cave.badPages →
      (2 ≤ s.cave.failRun ∨ 63 ≤ s.cave.badPages.length) →
    Does (.logMemFault (.page p)) s fun t => t.cave.mode = .degraded ∧ RouterOnly s t)
  ∧ (∀ (s : State), clocked s = true → s.fw.rind = .running →
    Does (.logMemFault .failsafe) s fun t => t.cave.mode = .volatile ∧ RouterOnly s t)
  ∧ (∀ (s : State), clocked s = true → s.fw.rind = .running → s.power.brownout = false → s.power.ctrAt + 600 ≤ s.power.opsec →
    Does .operatingCounterWrite s fun t =>
      t = { s with nvm := t.nvm, power := { s.power with ctrAt := s.power.opsec } }
        ∧ t.nvm = { s.nvm with counters := t.nvm.counters }
        ∧ ∀ k, Tbl.find t.nvm.counters k =
            (if k = ((newestCounter s.nvm).elim 0 fun p => (p.1 + 1) % 16) then
               some (counterBytes s.power.opsec s.power.cycle ((newestCounter s.nvm).elim 1 fun p => writeNo p.2 + 1))
             else Tbl.find s.nvm.counters k))
  ∧ (∀ (s : State), clocked s = true → s.fw.rind = .running → s.power.brownout = false → s.power.refreshAt + 60 ≤ s.power.opsec →
    Does .nvmRefresh s fun t =>
      t.power = { s.power with refreshAt := s.power.opsec }
        ∧ t.nvm = (if s.nvm.refreshCursor < 2304 then { s.nvm with refreshCursor := s.nvm.refreshCursor + 1 }
            else if s.nvm.refreshOpsec + 157788000 ≤ s.power.opsec then { s.nvm with refreshOpsec := s.power.opsec, refreshCursor := 1 } else s.nvm)
        ∧ t = { s with power := t.power, nvm := t.nvm })

/-! ## Measurement -/

/-- CONVERSION of a standing, paired or urgent conversion (R107, R235, R236, R237): its node takes the value, limited to the clip value of the range in use,
and its quality: Suspect while the bank's reference is not ready, the bank has failed or the slice is under repair (R242, R245), or the node fails
plausibility, Clipped beyond the clip value, Settling before its time, else Valid. A usable value is held, and the sample word carries bank, slice, node and
quality, with PLAUS in a plausibility pair (R247), whose checker forms a word of its own. Every other node keeps its value and quality, every leaf all but its
telemetry, let-through and on-time figures. -/
def Obligations.ConversionReachesItsNode : Prop :=
  ∀ (s : State) (c : ConversionData), clocked s = true → c.bank < 2 → c.slice < 11 → c.node < 243 → mayConvert s c = true →
      (∀ id e, c.kind ≠ .sequence id e) →
    Does (.conversion c) s fun t =>
      (let v := clampI (-(nodeClip s c.node)) (nodeClip s c.node) c.raw
       let q : Quality :=
         if (mbank s c.bank).refReady = false ∨ (nodeOf s c.node).plausFail = true ∨ (mbank s c.bank).bankFail = true
             ∨ (mbank s c.bank).repairing.map (·.1) = some c.slice then .suspect
         else if nodeClip s c.node < c.raw ∨ c.raw < -(nodeClip s c.node) then .clipped
         else if s.time.gtc < (nodeOf s c.node).settleUntil then .settling
         else .valid
       (nodeOf t c.node).value = v ∧ (nodeOf t c.node).quality = q ∧ (nodeOf t c.node).at_ = s.time.gtc
        ∧ (nodeOf t c.node).word = sampleWord (match c.kind with | .pair ck _ => makesPair s c.bank c.node ck | _ => false) c.bank q.code c.slice c.node v
        ∧ (nodeOf t c.node).held = (if q = .valid ∨ q = .clipped then some (v, s.time.gtc) else (nodeOf s c.node).held)
        ∧ (q = .clipped → (mbank t c.bank).cntClipped = satN 4294967295 ((mbank s c.bank).cntClipped + 1)))
      ∧ (∀ ck raw, c.kind = .pair ck raw → makesPair s c.bank c.node ck = true →
          (nodeOf t c.node).checkWord = sampleWord true (1 - c.bank) (sampleOf s (1 - c.bank) ck c.node raw).2.code ck c.node (sampleOf s (1 - c.bank) ck c.node raw).1)
      ∧ (c.kind = .urgent → c.node ∉ (mbank t c.bank).urgent ∧ c.node ∉ (mbank t c.bank).urgentPress)
      ∧ (∀ n, n ≠ c.node → (nodeOf t n).value = (nodeOf s n).value ∧ (nodeOf t n).quality = (nodeOf s n).quality ∧ (nodeOf t n).held = (nodeOf s n).held
          ∧ (nodeOf t n).gain = (nodeOf s n).gain)
      ∧ (∀ u, { leafOf t u with tel := (leafOf s u).tel, led := (leafOf s u).led, pwm := (leafOf s u).pwm } = leafOf s u)
      ∧ t.press = { s.press with leaves := t.press.leaves } ∧ t.time = s.time ∧ t.cmp = s.cmp ∧ t.power = s.power

/-- CONVERSION of a burst's entry (R239, R252): it fills the entry's mean, and the node as the Press sees it stays; with the last conversion of an entry the
mean starts anew with the next entry. The burst runs on until its last slot has passed. BURST and CAPTURE_DONE (R252, R253, R262, R263): a sequence whose
start time has come begins its burst; one whose burst has passed its last slot with a trigger in the latch begins the next in the slot after it, with
LATE_START; its burst number advances. A capture whose rows have all passed, and whose slot's former tiles no read holds any more (R287), is HELD, its rows
filled up. -/
def Obligations.BurstsAndCaptures : Prop :=
  (∀ (s : State) (c : ConversionData) (id e : Nat) (q : Sequence), clocked s = true → c.bank < 2 → c.slice < 11 → c.node < 243 → mayConvert s c = true →
       c.kind = .sequence id e → Tbl.find s.meas.seqs id = some q →
     Does (.conversion c) s fun t =>
       (∀ n, { nodeOf t n with fails := (nodeOf s n).fails, dual := (nodeOf s n).dual } = nodeOf s n) ∧ t.press = s.press ∧ t.time = s.time
         ∧ ∃ q', Tbl.find t.meas.seqs id = some q' ∧ q'.nodes = q.nodes ∧ q'.filter = q.filter ∧ q'.burstNo = q.burstNo
           ∧ (q'.burst = q.burst ∨ (q'.burst = none ∧ q.nodes.length ≤ q'.entry))
           ∧ (if q.acc.length + 1 < filterN q.filter then
                q'.entry = q.entry ∧ ∃ x, q'.acc = q.acc ++ [(clampI (-(nodeClip s c.node)) (nodeClip s c.node) c.raw, x)]
              else q'.acc = [] ∧ q'.entry = e + 1))
  ∧ (∀ (s : State) (id : Nat) (q : Sequence) (p : Nat × Stream), clocked s = true → id < 8 → Tbl.find s.meas.seqs id = some q → streamOf s id = some p →
      q.nodes ≠ [] → q.suspended = false → (mbank s q.bank).bankFail = false → (mbank s q.bank).refOn = true →
    Does (.burst id) s fun t =>
      (∀ trig start late, q.burst = none → q.armed = some (trig, start, late) →
        if start < s.time.gtc + tickGtc s then
          ∃ q', Tbl.find t.meas.seqs id = some q' ∧ q'.burst = some (trig, start, late) ∧ q'.armed = none ∧ q'.burstNo = (q.burstNo + 1) % 65536
        else t = s)
      ∧ (∀ b trig e, q.burst = some b → q.nodes.length ≤ q.entry → burstEnd s q = some e → e < s.time.gtc + tickGtc s → q.latch = some trig →
          ∃ q', Tbl.find t.meas.seqs id = some q' ∧ q'.burst = some (trig, e, true) ∧ q'.entry = 0 ∧ q'.burstNo = (q.burstNo + 1) % 65536)
      ∧ (q.armed = none → (q.burst = none ∨ q.latch = none ∨ q.entry < q.nodes.length) → t = s)
      ∧ t.press = s.press ∧ t.time = s.time)
  ∧ (∀ (s : State) (k : Nat), clocked s = true → k < 4 → (capOf s k).state = .filling →
    Does (.captureDone k) s fun t =>
      if rowFrom ((capOf s k).trigGtc + (capOf s k).post * 400) (capOf s k).interval ≤ s.time.gtc ∧ captureReading s k = false then
        (capOf t k).state = .held ∧ (capOf t k).trigGtc = (capOf s k).trigGtc ∧ (capOf t k).nodes = (capOf s k).nodes ∧ (capOf s k).rows <+: (capOf t k).rows
          ∧ RouterOnly s t
      else t = s)
  ∧ (∀ (s : State) (id trig start : Nat) (late : Bool) (q : Sequence) (p : Nat × Stream), clocked s = true → id < 8 → Tbl.find s.meas.seqs id = some q →
      streamOf s id = some p → q.nodes ≠ [] → q.burst = none → q.suspended = false → (mbank s q.bank).bankFail = false → (mbank s q.bank).refOn = true →
      q.armed = some (trig, start, late) → start < s.time.gtc + tickGtc s →
    Does (.burst id) s fun t => ∃ q', Tbl.find t.meas.seqs id = some q' ∧ q'.burst = some (trig, start, late) ∧ q'.burstNo = (q.burstNo + 1) % 65536)
  ∧ (∀ (s : State) (k : Nat), clocked s = true → k < 4 → (capOf s k).state = .filling → captureReading s k = false →
      rowFrom ((capOf s k).trigGtc + (capOf s k).post * 400) (capOf s k).interval ≤ s.time.gtc →
    Does (.captureDone k) s fun t => (capOf t k).state = .held ∧ RouterOnly s t)

/-- CONVERSION of the sixteenth plausibility pair of a node (R247, R248): where both values are usable, the mean difference passes within 0.5 % of the full
scale of the range in use; a pass clears the node's failures, a third failure in a row declares it. A new sum of pairs begins, and the check is counted,
either way. -/
def Obligations.SixteenPairsDecide : Prop :=
  ∀ (s : State) (c : ConversionData) (ck : Nat) (raw : Int), clocked s = true → c.bank < 2 → c.slice < 11 → mayConvert s c = true → c.kind = .pair ck raw →
      c.node < 243 → makesPair s c.bank c.node ck = true → (nodeOf s c.node).pairs = 15 → (nodeOf s c.node).plausFail = false →
      s.time.gtc ≥ (nodeOf s c.node).settleUntil →
      -(nodeClip s c.node) ≤ c.raw → c.raw ≤ nodeClip s c.node → -(nodeClip s c.node) ≤ raw → raw ≤ nodeClip s c.node →
    Does (.conversion c) s fun t =>
      (nodeOf t c.node).pairs = 0 ∧ (nodeOf t c.node).pairSum = 0
        ∧ (mbank t (1 - nodeBank c.node)).cntChecks = satN 4294967295 ((mbank s (1 - nodeBank c.node)).cntChecks + 1)
        ∧ (if (((nodeOf s c.node).pairSum + (c.raw - raw)).natAbs : Int) * 1000 ≤ plausLimit s c.node * 16 then
             (nodeOf t c.node).fails = 0 ∧ (nodeOf t c.node).plausFail = false
               ∧ (mbank t (1 - nodeBank c.node)).cntFails = (mbank s (1 - nodeBank c.node)).cntFails
           else
             ((nodeOf t c.node).plausFail = true ↔ 2 ≤ (nodeOf s c.node).fails)
               ∧ (mbank t (1 - nodeBank c.node)).cntFails = satN 4294967295 ((mbank s (1 - nodeBank c.node)).cntFails + 1))

/-- REF_READY, SPARE_ROTATION, SLICE_CALIBRATION and CMP_DAC_CHECK (R241, R242, R243, R244, R245, R246, R283): a reference enabled for 250 µs and in tolerance
is ready; one that is not after 1 ms fails its bank, and the other takes over at the next tick. Every 10 ms the next working slice is out of service. A slice
that calibrates is dated; one that does not is failed for good, in NVM-A as well; the calibration of one that is to replace another is abandoned. The DAC
check goes through the 344 cells, and marks one whose readback is off. -/
def Obligations.BanksSlicesAndDacs : Prop :=
  (∀ (s : State) (b : Nat) (ok : Bool), clocked s = true → b < 2 → (mbank s b).refOn = true → (mbank s b).refReady = false → (mbank s b).bankFail = false →
      (mbank s b).refAt + 100000 ≤ s.time.gtc →
    Does (.refReady b ok) s fun t =>
      if ok = true ∧ s.time.gtc ≤ (mbank s b).refAt + 400000 then t = onBank s b fun k => { k with refReady := true, rewake := false, refBad := 0 }
      else if (mbank s b).refAt + 400000 ≤ s.time.gtc then (mbank t b).refFail = true ∧ (mbank t b).bankFail = true ∧ RouterOnly s t
      else t = s)
  ∧ (∀ (s : State) (b : Nat), b < 2 → (mbank s b).bankFail = true → (mbank s (1 - b)).bankFail = false → (mbank s (1 - b)).takeover = false →
      (mbank (takeOverStep s) (1 - b)).takeover = true ∧ (takeOverStep s).press = s.press)
  ∧ (∀ (s : State) (b n : Nat) (ps : List (Int × Int)), clocked s = true → b < 2 → n < 243 → ps.length = 16 → (mbank s b).outSlice ≠ 15 →
      (mbank s b).refOn = true → (mbank s b).bankFail = false → (mbank s b).repairing = none → (mbank s b).rotatedAt + 4000000 ≤ s.time.gtc →
    Does (.spareRotation b n ps) s fun t =>
      (mbank t b).outSlice = nextSlice s b (mbank s b).outSlice ∧ (sliceFailed s b (mbank t b).outSlice = false ∨ (mbank t b).outSlice = (mbank s b).outSlice)
        ∧ (mbank t b).rotatedAt = s.time.gtc ∧ (mbank t b).cntSwaps = satN 4294967295 ((mbank s b).cntSwaps + 1) ∧ mbank t (1 - b) = mbank s (1 - b)
        ∧ (∀ m, nodeOf t m = nodeOf s m) ∧ RouterOnly s t)
  ∧ (∀ (s : State) (b : Nat) (ok : Bool), clocked s = true → b < 2 → calibrating s b < 11 → (mbank s b).bankFail = false → (mbank s b).repairing = none
      → s.meas.calRun = [] →
    Does (.sliceCalibration b ok) s fun t =>
      (if ok = true then Tbl.get 0 (mbank t b).calAt (calibrating s b) = s.time.gtc ∧ (mbank t b).failed = (mbank s b).failed ∧ t.nvm = s.nvm
       else if sliceFailed s b (calibrating s b) = false then
        (mbank t b).failed = (mbank s b).failed ||| 2 ^ calibrating s b
          ∧ (if b = 0 then t.nvm = { s.nvm with failedA := s.nvm.failedA ||| 2 ^ calibrating s b }
             else t.nvm = { s.nvm with failedB := s.nvm.failedB ||| 2 ^ calibrating s b })
          ∧ ((workingSlices t b).length < 7 → (mbank t b).bankFail = true)
       else True)
      ∧ t.press = s.press ∧ t.time = s.time)
  ∧ (∀ (s : State) (v : Int) (changed : Bool), clocked s = true → s.fw.rind = .running → s.cmp.dacNext < 344 →
    Does (.cmpDacCheck v changed) s fun t =>
      t.cmp.dacNext = (s.cmp.dacNext + 1) % 344 ∧ Tbl.find t.cmp.taps 7 = some s.cmp.dacNext
        ∧ (cellOf t s.cmp.dacNext).dacFail = (if changed = true then (cellOf s s.cmp.dacNext).dacFail else !dacPass (cellOf s s.cmp.dacNext).code v)
        ∧ (∀ k, k ≠ s.cmp.dacNext → cellOf t k = cellOf s k)
        ∧ { cellOf t s.cmp.dacNext with dacFail := (cellOf s s.cmp.dacNext).dacFail } = cellOf s s.cmp.dacNext
        ∧ t.press = s.press ∧ t.time = s.time)
  ∧ (∀ (s : State) (b : Nat), clocked s = true → b < 2 → (mbank s b).refOn = true → (mbank s b).refReady = false → (mbank s b).bankFail = false →
      (mbank s b).refAt + 100000 ≤ s.time.gtc → s.time.gtc ≤ (mbank s b).refAt + 400000 →
    Does (.refReady b true) s fun t => t = onBank s b fun k => { k with refReady := true, rewake := false, refBad := 0 })
  ∧ (∀ (s : State) (b : Nat), clocked s = true → b < 2 → calibrating s b < 11 → (mbank s b).bankFail = false → (mbank s b).repairing = none
      → s.meas.calRun = [] →
    Does (.sliceCalibration b true) s fun t => Tbl.get 0 (mbank t b).calAt (calibrating s b) = s.time.gtc ∧ (mbank t b).failed = (mbank s b).failed)
  ∧ (∀ (s : State) (b : Nat) (ok : Bool), clocked s = true → b < 2 → (mbank s b).repairing.isSome = true → Does (.sliceCalibration b ok) s fun t => t = s)

/-! ## Rings, host DMA, the link -/

/-- DOORBELL_POLL (R300, R317, R318, R319, R332, R334): at a poll interval's end, and not before, a block whose DB_GEN has changed is parsed, and ends a loss
of the host; the word of each served ring but the stream rings becomes its host index, or halts the ring where it is not below ENTRIES. A block that has not
changed since the parse after a change is not parsed. A read that fails loses the host, and the next poll comes 1 ms later. RING_SET_TABLE_READ (R313, R315,
R316): each ring is taken, kept or disabled as its record says. DESCRIPTOR_FETCH (R320, R321, R322): of the ring whose turn it is, a descriptor of a defined
opcode that passes the common checks stands in the in-flight table with its tag taken; of any other ring nothing is fetched; one whose submission tile fails
its check is not parsed, and stays to be fetched again (R289). -/
def Obligations.HostStructuresAreRead : Prop :=
  (∀ (s : State) (b : List Byte) (pages : List (Nat × Nat)), clocked s = true → polling s = true → s.link.pollDue ≤ s.time.gtc →
      s.link.dbGen ≠ some (w32 (leAt b 252 4)) →
    Does (.doorbellPoll (some b) pages) s fun t =>
      t.link.dbGen = some (w32 (leAt b 252 4)) ∧ t.link.silent = 0 ∧ t.link.silenceMs = s.link.setup.silence ∧ t.link.parseAgain = true
        ∧ t.link.pollDue = s.time.gtc + usGtc (if s.power.mode = .doze then s.link.setup.pollDoze else s.link.setup.pollRun)
        ∧ (s.link.hostLost = true → s.link.lostGen ≠ some (w32 (leAt b 252 4)) → t.link.hostLost = false ∧ t.link.tableDue = true)
        ∧ (∀ i, i < 44 → ¬ (32 ≤ i ∧ i < 40) → ringServed s i = true →
            if leAt b (4 * i) 4 < (ringOf s i).cfg.entries then ringOf t i = { ringOf s i with host := leAt b (4 * i) 4 }
            else ringOf t i = { ringOf s i with halted := true })
        ∧ (∀ i, i < 44 → ringServed s i = false → ringOf t i = ringOf s i))
  ∧ (∀ (s : State) (b : List Byte) (pages : List (Nat × Nat)), clocked s = true → polling s = true → s.link.pollDue ≤ s.time.gtc →
      s.link.dbGen = some (w32 (leAt b 252 4)) → s.link.parseAgain = false → s.link.hostLost = false →
    Does (.doorbellPoll (some b) pages) s fun t => t = useAddr (addr64 s.link.setup.dbLo s.link.setup.dbHi) (notePoll false s))
  ∧ (∀ (s : State) (b : Option (List Byte)) (pages : List (Nat × Nat)), clocked s = true → s.time.gtc < s.link.pollDue
      → Does (.doorbellPoll b pages) s fun t => t = s)
  ∧ (∀ (s : State) (pages : List (Nat × Nat)), clocked s = true → polling s = true → s.link.pollDue ≤ s.time.gtc →
    Does (.doorbellPoll none pages) s fun t =>
      t.link.hostLost = true ∧ t.link.rings = s.link.rings ∧ t.link.pollFails = true ∧ t.link.pollDue = s.time.gtc + 400000)
  ∧ (∀ (s : State) (tb : List Byte), clocked s = true → polling s = true → s.link.tableDue = true →
    Does (.ringSetTableRead (some tb)) s fun t =>
      t.link.tableDue = false ∧ t.link.ringsUp = true
        ∧ ∀ i, i < 44 →
            if recUsed tb i = true ∧ recValid tb i = true ∧ bit (parseRing (tableRec tb i)).flags 0 = true then
              (if ringServed s i = true then ringOf t i = { ringOf s i with err := false }
               else ringOf t i = { cfg := parseRing (tableRec tb i), up := true, everUp := true })
            else (ringOf t i).up = false)
  ∧ (∀ (s : State) (q : Nat) (d : FetchedDescriptor) (op : Op), clocked s = true → q < 16 → fetchTurn s = some q → s.vat.bad = []
      → refsOf s (ringHolder q) = [] →
      d.crcBad = false → d.fault = false → opOf (byteAt d.raw 0) = some op → tagRefused s (parseSub q d.raw d.data) = false
          → commonChecks s op (parseSub q d.raw d.data) = none →
    Does (.descriptorFetch q [d]) s fun t =>
      t.link.flights = s.link.flights ++ [flightFor s op (parseSub q d.raw d.data)] ∧ t.link.nextFlight = s.link.nextFlight + 1
        ∧ Tbl.find t.link.tagsBusy (tagKey q (parseSub q d.raw d.data).tag) = some (parseSub q d.raw d.data).gen
        ∧ (ringOf t q).index = (if (ringOf s q).cfg.entries ≤ (ringOf s q).index + 1 then 0 else (ringOf s q).index + 1)
        ∧ t.press = s.press ∧ t.time = s.time)
  ∧ (∀ (s : State) (q : Nat) (d : FetchedDescriptor), clocked s = true → q < 16 → fetchTurn s = some q → d.crcBad = true →
    Does (.descriptorFetch q [d]) s fun t =>
      (ringOf t q).index = (ringOf s q).index ∧ t.link.tagsBusy = s.link.tagsBusy ∧ t.link.cqHeld = s.link.cqHeld ∧ RouterOnly s t)
  ∧ (∀ (s : State) (q : Nat) (ds : List FetchedDescriptor), clocked s = true → q < 16 → fetchTurn s ≠ some q → Does (.descriptorFetch q ds) s fun t => t = s)

/-- RING_ENTRY_WRITE, COAL_TIME_EXPIRY, EVENT_TILE_CLOSE, EVENT_TOKEN_REFILL and STREAM_PAGE_FILLED (R322, R324, R325, R326, R328, R329, R330, R378, R381): a
ring with room takes the oldest completion or event at the device's index, which advances; the completion frees its tag. A ring's vector is signalled when its
oldest entry has waited COAL_TIME. A tile of events closes with 16 entries, or by its time. A bucket gains a token for each period, up to DEPTH. A page in
progress is reported by its time, once its entry, where that is pageable, is translated (R298). -/
def Obligations.RingEntriesGoOut : Prop :=
  (∀ (s : State) (q : Nat) (c : Completion) (rest : List Completion), clocked s = true → q < 16 → headBad s (ringHolder (16 + q)) = false →
      ringServed s (16 + q) = true → ringRoom s (16 + q) = true → s.link.hostLost = false → s.link.up = true → Tbl.get [] s.link.cqHeld q = c :: rest
          → c.sq < 16 →
    Does (.ringEntryWrite (16 + q)) s fun t =>
      Tbl.get [] t.link.cqHeld q = rest
        ∧ Tbl.get 0 t.link.cqSeq q = (Tbl.get 0 s.link.cqSeq q + 1) % 65536
        ∧ (ringOf t (16 + q)).index = (if (ringOf s (16 + q)).cfg.entries ≤ (ringOf s (16 + q)).index + 1 then 0 else (ringOf s (16 + q)).index + 1)
        ∧ (ringOf t (16 + q)).phase =
            (if (ringOf s (16 + q)).cfg.entries ≤ (ringOf s (16 + q)).index + 1 then !(ringOf s (16 + q)).phase else (ringOf s (16 + q)).phase)
        ∧ (c.status ≠ stTagBusy → t.link.tagsBusy = Tbl.del s.link.tagsBusy (tagKey c.sq c.tag))
        ∧ (c.noIrq = true ∨ irqEn s (16 + q) = false →
            t.link.hostMem = (hostWrite s (entryAddr s (16 + q) (ringOf s (16 + q)).index)
              (completionBytes c (Tbl.get 0 s.link.cqSeq q) (ringOf s (16 + q)).phase (ringOf s c.sq).index)).link.hostMem)
        ∧ t = { s with link := t.link, vat := t.vat, draws := t.draws })
  ∧ (∀ (s : State) (r : Nat) (e : Event) (es : List Event) (rest : List (List Event)), clocked s = true → r < 4 → headBad s (ringHolder (evIndex r)) = false →
      ringServed s (evIndex r) = true → ringRoom s (evIndex r) = true → s.link.hostLost = false → s.link.up = true →
      Tbl.get [] s.link.evHeld r = (e :: es) :: rest →
    Does (.ringEntryWrite (evIndex r)) s fun t =>
      Tbl.get [] t.link.evHeld r = (if es = [] then rest else es :: rest)
        ∧ (ringOf t (evIndex r)).evSeq = ((ringOf s (evIndex r)).evSeq + 1) % 4294967296
        ∧ (ringOf t (evIndex r)).index = (if (ringOf s (evIndex r)).cfg.entries ≤ (ringOf s (evIndex r)).index + 1 then 0 else (ringOf s (evIndex r)).index + 1)
        ∧ (irqEn s (evIndex r) = false → e.direct = none →
            t.link.hostMem = (hostWrite s (entryAddr s (evIndex r) (ringOf s (evIndex r)).index)
              (eventBytes e (ringOf s (evIndex r)).evSeq (ringOf s (evIndex r)).phase)).link.hostMem)
        ∧ (∀ v, e.direct = some v → s.link.cfg.msixEnable = true → ((msixOf s v).ctrl.getLsbD 0 || s.link.cfg.msixMask) = true → v ∈ t.link.pba)
        ∧ t = { s with link := t.link, vat := t.vat, draws := t.draws })
  ∧ (∀ (s : State) (i : Nat), clocked s = true → i < 44 → irqEn s i = true → 0 < (ringOf s i).coal
      → (ringOf s i).coalAt + usGtc (ringOf s i).cfg.coalTime ≤ s.time.gtc →
    Does (.coalTimeExpiry i) s fun t => t = signalRing s i ∧ (ringOf t i).coal = 0)
  ∧ (∀ (s : State) (r : Nat) (e : Event) (es : List Event), clocked s = true → r < 4 → Tbl.get [] s.link.evOpen r = e :: es →
      (16 ≤ es.length + 1 ∨ Tbl.get 0 s.link.evOpenAt r + (if s.power.mode = .doze then 6400 else 800) ≤ s.time.gtc) →
    Does (.eventTileClose r) s fun t =>
      Tbl.get [] t.link.evHeld r = Tbl.get [] s.link.evHeld r ++ [e :: es]
        ∧ t = { s with link := { s.link with evHeld := t.link.evHeld, evOpen := Tbl.del s.link.evOpen r }, vat := t.vat, draws := t.draws })
  ∧ (∀ (s : State) (src : Nat), clocked s = true → src < 256 →
    Does (.eventTokenRefill src) s fun t =>
      let period := (bits (rateOf s src) 7 0 + 1) * 4000
      let k := (s.time.gtc - Tbl.get 0 s.router.refillAt src) / period
      (0 < k → tokensOf t src = satN (depthOf s src) (tokensOf s src + k) ∧ Tbl.get 0 t.router.refillAt src = Tbl.get 0 s.router.refillAt src + k * period)
        ∧ (k = 0 → t = s) ∧ t = { s with router := { s.router with tokens := t.router.tokens, refillAt := t.router.refillAt } })
  ∧ (∀ (s : State) (r : Nat) (x : Stream), clocked s = true → r < 8 → streamAt s r = some x → x.stopped = none → 0 < x.pageBytes →
      x.pageAt + (if s.power.mode = .doze then 4000000 else 400000) ≤ s.time.gtc → entryWaits s r = false →
    Does (.streamPageFilled r) s fun t =>
      streamAt t r = some { x with pageBytes := 0, pageGap := false, pages := x.pages + 1 }
        ∧ (ringOf t (stIndex r)).pages = (ringOf s (stIndex r)).pages.drop 1 ∧ t = { s with link := t.link, meas := t.meas, draws := t.draws })
  ∧ (∀ (s : State) (r : Nat) (x : Stream), clocked s = true → r < 8 → streamAt s r = some x → x.stopped = none → 0 < x.pageBytes →
      x.pageAt + (if s.power.mode = .doze then 4000000 else 400000) ≤ s.time.gtc → entryWaits s r = true → streamXfer s r = none →
    Does (.streamPageFilled r) s fun t =>
      t = waitXfer s { flight := none, ring := r, addr := entryAddr s (stIndex r) (ringOf s (stIndex r)).index, done := 0 })
  ∧ (∀ (s : State) (src period : Nat), clocked s = true → src < 256 → period = (bits (rateOf s src) 7 0 + 1) * 4000 →
      Tbl.get 0 s.router.refillAt src + period ≤ s.time.gtc →
    Does (.eventTokenRefill src) s fun t =>
      tokensOf t src = satN (depthOf s src) (tokensOf s src + (s.time.gtc - Tbl.get 0 s.router.refillAt src) / period))

/-- HOST_LOST, DMA_FAULT and ALLOCATION_TIMEOUT (R294, R300, R332, R333): a silence longer than HOST_SILENCE_TIMEOUT, or 30 s without ENABLE, loses the host,
and with FALLBACK 0 the units go on as they are. A fault on a ring halts it alone, one on a pinned stream, or on any without ATS, stops the stream, one on the
buffer of a command ends it with XLATE and the bytes transferred, and one met as a pinned buffer is read ends its command with XLATE and no effect; one on the
doorbell block or the ring set table loses the host. A command that has waited 100 ms for bulk or handover tiles ends with BUSY, and none before. -/
def Obligations.HostLossAndDmaFaults : Prop :=
  (∀ (s : State), clocked s = true → s.link.hostLost = false →
      (polling s = true ∧ s.link.dbGen ≠ none ∧ s.link.silenceMs * 400000 < s.link.silent
        ∨ s.link.setup.enable = false ∧ pasteStarted s = true ∧ ∃ a, s.link.allowAt = some a ∧ a + 12000000000 ≤ s.time.gtc) →
    Does .hostLost s fun t =>
      t.link.hostLost = true ∧ t.link.hostLostAt = s.time.gtc ∧ t.link.lostGen = s.link.dbGen
        ∧ (fallbackOf s = 0 → RouterOnly s t) ∧ (fallbackOf s = 2 → t.link.regCycles = 1))
  ∧ (∀ (s : State), clocked s = true → (polling s = true → s.link.dbGen ≠ none → s.link.silent ≤ s.link.silenceMs * 400000) → s.link.allowAt = none →
    Does .hostLost s fun t => t = s)
  ∧ (∀ (s : State) (target addr : Nat) (c : CommandRef), clocked s = true → polling s = true → (target = 48 ∨ target = 49) →
    Does (.dmaFault target addr c) s fun t => t.link.hostLost = true)
  ∧ (∀ (s : State) (i addr : Nat) (c : CommandRef), clocked s = true → s.link.up = true → i < 44 → ¬ (32 ≤ i ∧ i < 40) → ringServed s i = true →
    Does (.dmaFault i addr c) s fun t =>
      ringOf t i = { ringOf s i with halted := true } ∧ (∀ j, j ≠ i → ringOf t j = ringOf s j) ∧ RouterOnly s t)
  ∧ (∀ (s : State) (r addr : Nat) (c : CommandRef) (x : Stream), clocked s = true → s.link.up = true → r < 8 → ringServed s (stIndex r) = true →
      (bit (ringOf s (stIndex r)).cfg.flags 1 = true ∨ s.link.ats = false) → streamAt s r = some x → x.stopped = none →
    Does (.dmaFault (stIndex r) addr c) s fun t =>
      (streamAt t r).map (·.stopped) = some (some 1) ∧ (∀ j, j ≠ stIndex r ∨ x.pageBytes = 0 → ringOf t j = ringOf s j) ∧ RouterOnly s t)
  ∧ (∀ (s : State) (addr : Nat) (c : CommandRef) (f : Flight), clocked s = true → s.link.up = true → flightByRef s c = some f → inTransfer f = true →
    Does (.dmaFault 50 addr c) s fun t => Ends s t f stXlate (match f.phase with | .transfer n => w32 n | _ => 0))
  ∧ (∀ (s : State) (op : Op) (sub : Submission), HostReady s op { sub with fault := false } → sub.fault = true →
      pinnedBuffer (flightFor s op sub) = true →
    Serves (hostRow op sub) s fun t => Answers s t sub stXlate 0 ∧ t.press = s.press ∧ t.fw = s.fw)
  ∧ (∀ (s : State) (c : CommandRef) (f : Flight) (a : Nat), clocked s = true → flightByRef s c = some f → f.phase = .waiting →
      (usesBulk f.op = true ∨ usesHandover f.op = true) → f.waitAt = some a → a + 40000000 ≤ s.time.gtc →
    Does (.allocationTimeout c) s fun t => Ends s t f stBusy (defaultResult s f) ∧ t.press = s.press ∧ t.fw = s.fw)
  ∧ (∀ (s : State) (c : CommandRef), clocked s = true →
      (∀ f a, flightByRef s c = some f → f.waitAt = some a → s.time.gtc < a + 40000000) →
    Does (.allocationTimeout c) s fun t => t = s)

/-- TRANSLATION_RESPONSE, PAGE_REQUEST_RESPONSE, PAGE_REQUEST_TIMEOUT, ATS_INVALIDATE and PRI_ENABLE (R297, R298, R299, R303): a present page is cached, as 2
MiB where its translation is that large and else as 4 KiB, and its transfer goes on; an absent one is requested where PRI may be used, else its command ends
with XLATE and the bytes transferred, or its stream stops. A successful request lets the transfer be translated again, an invalid one ends its command, any
other answer stops page requests and fails every paused transfer, with a request of its own or without. A late answer is counted. -/
def Obligations.TranslationsAndPages : Prop :=
  (∀ (s : State) (k bytes : Nat) (x : Xfer), clocked s = true → Tbl.find s.link.xfers k = some x → x.prg = none →
      (x.flight.isSome = true ∨ ∃ y, streamAt s x.ring = some y ∧ y.tiles = [] ∧ pageDue s y = false) →
    Does (.translationResponse k (some bytes)) s fun t =>
      (bytes < 2097152 → (x.addr / 4096 * 4096, 4096) ∈ t.link.atc) ∧ (2097152 ≤ bytes → (x.addr / 2097152 * 2097152, 2097152) ∈ t.link.atc)
        ∧ t.link.atc.length ≤ 256)
  ∧ (∀ (s : State) (k bytes : Nat) (x : Xfer) (y : Stream), clocked s = true → Tbl.find s.link.xfers k = some x → x.prg = none → x.flight = none →
      streamAt s x.ring = some y → y.tiles = [] → pageDue s y = true →
      x.addr = entryAddr s (stIndex x.ring) (ringOf s (stIndex x.ring)).index →
    Does (.translationResponse k (some bytes)) s fun t =>
      streamAt t x.ring = some { y with pageBytes := 0, pageGap := false, pages := y.pages + 1 } ∧ Tbl.find t.link.xfers k = none)
  ∧ (∀ (s : State) (k bytes : Nat) (x : Xfer) (f : Flight), clocked s = true → Tbl.find s.link.xfers k = some x → x.prg = none
      → x.flight.bind (flightOf s) = some f →
      f.op = .logRead → f.origin = .host → s.link.up = true → x.done < x.data.length
          → f.sub.bufAddr + x.data.length ≤ (f.sub.bufAddr + x.done) / 4096 * 4096 + 4096 →
      x.addr = f.sub.bufAddr + x.done → (∀ r ∈ x.tiles, unreadable s r = false) →
    Does (.translationResponse k (some bytes)) s fun t => Ends s t f stOk (w32 ((x.data.length - 48) / 32)) ∧ t.press = s.press)
  ∧ (∀ (s : State) (k : Nat) (x : Xfer), clocked s = true → Tbl.find s.link.xfers k = some x → x.prg = none → mayPage s x = true → s.link.prgs.length < 32 →
    Does (.translationResponse k none) s fun t =>
      ∃ g, t.link.prgs = s.link.prgs ++ [g] ∧ Tbl.find t.link.xfers k = some { x with prg := some g, prgAt := s.time.gtc, paused := true }
        ∧ t = { s with link := { s.link with prgs := t.link.prgs, nextPrg := t.link.nextPrg, xfers := t.link.xfers } })
  ∧ (∀ (s : State) (k : Nat) (x : Xfer) (f : Flight), clocked s = true → Tbl.find s.link.xfers k = some x → x.prg = none → mayPage s x = false →
      x.flight.bind (flightOf s) = some f → f.origin = .host →
    Does (.translationResponse k none) s fun t => Ends s t f stXlate (w32 x.done) ∧ t.press = s.press)
  ∧ (∀ (s : State) (k : Nat) (x : Xfer) (y : Stream), clocked s = true → Tbl.find s.link.xfers k = some x → x.prg = none → mayPage s x = false →
      x.flight = none → streamAt s x.ring = some y → y.stopped = none →
    Does (.translationResponse k none) s fun t => (streamAt t x.ring).map (·.stopped) = some (some 1) ∧ RouterOnly s t)
  ∧ (∀ (s : State) (g code : Nat), clocked s = true → g < 512 → g ∉ s.link.prgs →
    Does (.pageRequestResponse g code) s fun t => t = s.onLink fun l => { l with prgLate := satN 4294967295 (l.prgLate + 1) })
  ∧ (∀ (s : State) (g k : Nat) (x : Xfer), clocked s = true → g < 512 → g ∈ s.link.prgs → xferOfPrg s g = some (k, x) →
    Does (.pageRequestResponse g 0) s fun t =>
      g ∉ t.link.prgs ∧ Tbl.find t.link.xfers k = some { x with prg := none, paused := false }
          ∧ t = { s with link := { s.link with prgs := t.link.prgs, xfers := t.link.xfers } })
  ∧ (∀ (s : State) (g k : Nat) (x : Xfer) (f : Flight), clocked s = true → g < 512 → g ∈ s.link.prgs → xferOfPrg s g = some (k, x) →
      Tbl.find s.link.xfers k = some x → x.flight.bind (flightOf s) = some f → f.origin = .host →
    Does (.pageRequestResponse g 1) s fun t => g ∉ t.link.prgs ∧ Ends s t f stXlate (w32 x.done))
  ∧ (∀ (s : State) (g code : Nat), clocked s = true → g < 512 → g ∈ s.link.prgs → 2 ≤ code →
    Does (.pageRequestResponse g code) s fun t => t.link.priStopped = true ∧ t.link.prgs = [])
  ∧ (∀ (s : State) (g code k : Nat) (x : Xfer) (f : Flight), clocked s = true → g < 512 → g ∈ s.link.prgs → 2 ≤ code → s.link.xfers = [(k, x)]
      → x.paused = true →
      x.flight.bind (flightOf s) = some f → f.origin = .host →
    Does (.pageRequestResponse g code) s fun t => Ends s t f stXlate (w32 x.done))
  ∧ (∀ (s : State) (g k : Nat) (x : Xfer) (f : Flight), clocked s = true → g < 512 → xferOfPrg s g = some (k, x) → Tbl.find s.link.xfers k = some x →
      x.flight.bind (flightOf s) = some f → f.origin = .host → x.prgAt + 400000000 ≤ s.time.gtc →
    Does (.pageRequestTimeout g) s fun t => Ends s t f stXlate (w32 x.done) ∧ t.press = s.press)
  ∧ (∀ (s : State) (addr bytes : Nat), clocked s = true →
    Does (.atsInvalidate addr bytes) s fun t =>
      (∀ e, e ∈ t.link.atc ↔ e ∈ s.link.atc ∧ ¬ (e.1 < addr + bytes ∧ addr < e.1 + e.2)) ∧ t = { s with link := { s.link with atc := t.link.atc } })
  ∧ (∀ (s : State), clocked s = true → s.link.up = true →
    Does .priEnable s fun t =>
      t.link.pri = true ∧ t.link.priStopped = false ∧ t.link.prgs = [] ∧ (∀ p ∈ t.link.xfers, p.2.prg = none)
        ∧ t = { s with link := { s.link with pri := true, priStopped := false, prgs := [], xfers := t.link.xfers } })

/-- PERST_L, FLR and LINK_UP (R307, R309, R442, R447): the host interface is as after reset, its commands have gone but for what the Press had taken in, which
completes to nobody, its running streams and rings are released, and the units go on; a stream that the device has stopped still holds its ring (R360).
PERST_L takes the link down; its deassertion releases WAKE_L. The link comes up as it trained, and is narrowed in DOZE and during a brownout warning. -/
def Obligations.HostInterfaceResets : Prop :=
  (∀ (s : State) (c : Instr), clocked s = true → s.link.flights.Pairwise (fun f g => f.id ≠ g.id) → (c = .perstL true ∨ (c = .flr ∧ s.link.up = true)) →
    Does c s fun t =>
      t.link.setup = {} ∧ t.link.msix = [] ∧ t.link.pba = [] ∧ t.link.rings = [] ∧ t.link.tagsBusy = [] ∧ t.link.cqHeld = [] ∧ t.link.evHeld = []
        ∧ t.link.evOpen = [] ∧ t.link.hostLost = false ∧ t.link.allowAt = some s.time.gtc ∧ t.link.cfg = {} ∧ t.link.d3hot = false
        ∧ t.meas.streams = (s.meas.streams.filter fun p => p.2.stopped.isSome) ∧ t.power.parkPending = false
        ∧ t.time = { s.time with dialogue := none } ∧ (∀ g ∈ t.link.flights, g.origin ≠ .host)
        ∧ (∀ f ∈ s.link.flights, keepsAcross s f = true → { f with origin := if f.origin = .host then .orphan else f.origin } ∈ t.link.flights)
        ∧ (∀ i, i < 44 → tilesOf t (ringHolder i) = []) ∧ t.press = s.press ∧ t.router = s.router
        ∧ t.link.up = (if c = .flr then s.link.up else false))
  ∧ (∀ (s : State), clocked s = true →
    Does (.perstL false) s fun t =>
      t = (s.onLink fun l => { l with perst := false, allowAt := some s.time.gtc }).onPower fun p => { p with wakeL := false })
  ∧ (∀ (s : State) (on : Bool), (s.power.booting = true ∨ s.power.clockFail = true) →
      exec (.perstL on) s = .next (s.onLink fun l => { l with perst := on, up := l.up && !on }))
  ∧ (∀ (s : State) (x : LinkInputs), clocked s = true → s.link.perst = false → 1 ≤ x.speed → x.speed ≤ 3 → 1 ≤ x.width → x.width ≤ 2 →
    Does (.linkUp x) s fun t =>
      t.link.up = true ∧ t.link.ats = x.ats ∧ t.link.pri = x.pri ∧ t.link.ptm = x.ptm ∧ t.link.cfg = x.cfg ∧ t.power = { s.power with wakeL := false }
        ∧ (if s.power.mode = .doze ∨ s.power.brownout = true then t.link.speed = 1 ∧ t.link.width = 1 else t.link.speed = x.speed ∧ t.link.width = x.width)
        ∧ t = { s with link := t.link, power := t.power })

/-! ## The DOE mailbox, BAR0, time -/

/-- The nine SPDM rows (R335, R336) while Rind runs and the link is up: each request is answered in the mailbox and changes nothing else, but for the draw of
a fresh nonce. DOE Discovery names itself at 0 and CMA/SPDM at 1; slot 0 alone has a chain; a challenge and the measurements are signed over both nonces. With
the link down nothing comes. The codes of the two standards, and what a request outside them is answered with, are the model's (log entry 22). -/
def Obligations.SpdmAnswers : Prop :=
  (∀ (s : State), clocked s = true → s.fw.rind = .running → s.link.up = true →
      Does .getVersion s fun t => t = s.onLink fun l => { l with doe := .version 0x12 })
  ∧ (∀ (s : State) (f : Word32), clocked s = true → s.fw.rind = .running → s.link.up = true →
      Does (.getCapabilities f) s fun t => t = s.onLink fun l => { l with doe := .capabilities 0x16 })
  ∧ (∀ (s : State) (a h : Word32), clocked s = true → s.fw.rind = .running → s.link.up = true →
      Does (.negotiateAlgorithms a h) s fun t => t = s.onLink fun l => { l with doe := .algorithms (a &&& 0x10) (h &&& 0x1) })
  ∧ (∀ (s : State), clocked s = true → s.fw.rind = .running → s.link.up = true →
      Does .getDigests s fun t => t = s.onLink fun l => { l with doe := .digests 1 (sha256 Config.certificateChain) })
  ∧ (∀ (s : State) (off n : Nat), clocked s = true → s.fw.rind = .running → s.link.up = true → off ≤ Config.certificateChain.length →
      Does (.getCertificate 0 off n) s fun t =>
        let p := (Config.certificateChain.drop off).take n
        t = s.onLink fun l => { l with doe := .certificate 0 p (Config.certificateChain.length - off - p.length) })
  ∧ (∀ (s : State) (nonce : List Byte), clocked s = true → s.fw.rind = .running → s.link.up = true →
      Does (.challenge 0 nonce) s fun t =>
        let ours := toLe (draw s).1 32
        t = { s with link := { s.link with doe := .challengeAuth 0 ours (Config.deviceSignature (nonce ++ ours ++ sha256 Config.certificateChain)) }, draws := s.draws + 1 })
  ∧ (∀ (s : State) (k : Nat) (nonce : List Byte), clocked s = true → s.fw.rind = .running → s.link.up = true → 1 ≤ k → k ≤ 6 →
      Does (.getMeasurements k nonce) s fun t =>
        let ours := toLe (draw s).1 32
        t = { s with link := { s.link with doe := .measurements 6 [(k, measurementBlock s k)] ours (Config.deviceSignature (nonce ++ ours ++ measurementBlock s k)) }, draws := s.draws + 1 })
  ∧ (∀ (s : State) (code : Byte), clocked s = true → s.fw.rind = .running → s.link.up = true →
      Does (.spdmUnsupportedRequest code) s fun t => t = s.onLink fun l => { l with doe := .error errUnsupported })
  ∧ (∀ (s : State), clocked s = true → s.fw.rind = .running → s.link.up = true →
      Does (.doeDiscovery 0) s fun t => t = s.onLink fun l => { l with doe := .discovery 0 1 0 1 })
  ∧ (∀ (s : State), clocked s = true → s.fw.rind = .running → s.link.up = true →
      Does (.doeDiscovery 1) s fun t => t = s.onLink fun l => { l with doe := .discovery 1 1 1 0 })
  ∧ (∀ (s : State) (k : Nat), clocked s = true → s.fw.rind = .running → s.link.up = true → 2 ≤ k →
      Does (.doeDiscovery k) s fun t => t = s.onLink fun l => { l with doe := .discovery k 0xFFFF 0xFF 0 })
  ∧ (∀ (s : State) (slot off n : Nat), clocked s = true → s.fw.rind = .running → s.link.up = true → (slot ≠ 0 ∨ Config.certificateChain.length < off) →
      Does (.getCertificate slot off n) s fun t => t = s.onLink fun l => { l with doe := .error errInvalid })
  ∧ (∀ (s : State) (slot : Nat) (nonce : List Byte), clocked s = true → s.fw.rind = .running → s.link.up = true → slot ≠ 0 →
      Does (.challenge slot nonce) s fun t => t = { s with link := { s.link with doe := .error errInvalid }, draws := s.draws + 1 })
  ∧ (∀ (s : State) (nonce : List Byte), clocked s = true → s.fw.rind = .running → s.link.up = true →
      Does (.getMeasurements 0 nonce) s fun t =>
        let ours := toLe (draw s).1 32
        t = { s with link := { s.link with doe := .measurements 6 [] ours (Config.deviceSignature (nonce ++ ours)) }, draws := s.draws + 1 })
  ∧ (∀ (s : State) (nonce : List Byte), clocked s = true → s.fw.rind = .running → s.link.up = true →
      Does (.getMeasurements 0xFF nonce) s fun t =>
        let ours := toLe (draw s).1 32
        let bs := [1, 2, 3, 4, 5, 6].map fun k => (k, measurementBlock s k)
        t = { s with link := { s.link with doe := .measurements 6 bs ours (Config.deviceSignature (nonce ++ ours ++ bs.flatMap (·.2))) }, draws := s.draws + 1 })
  ∧ (∀ (s : State) (k : Nat) (nonce : List Byte), clocked s = true → s.fw.rind = .running → s.link.up = true → 6 < k → k ≠ 0xFF →
      Does (.getMeasurements k nonce) s fun t => t = { s with link := { s.link with doe := .error errInvalid }, draws := s.draws + 1 })
  ∧ (∀ (s : State) (c : Instr), clocked s = true → s.fw.rind = .running → s.link.up = false →
      (c = .getVersion ∨ (∃ f, c = .getCapabilities f) ∨ (∃ a h, c = .negotiateAlgorithms a h) ∨ c = .getDigests ∨ (∃ k o n, c = .getCertificate k o n)
        ∨ (∃ k n, c = .challenge k n) ∨ (∃ k n, c = .getMeasurements k n) ∨ (∃ b, c = .spdmUnsupportedRequest b) ∨ ∃ k, c = .doeDiscovery k) →
      Does c s fun t => t = s)

/-- ENABLE, SETUP_LOCK, EVENT_RATE_WRITE, VECTOR_CTRL, TIME_GTC_LO_READ and BAR0_WRITE with the link up (R10, R311, R312, R330, R380, R483, R487, R495):
ENABLE takes effect where both bases are set, else SETUP_ERR is; the lock makes every further write of SETUP, TIME and the event arrays be rejected and
counted, but not one of the MSI-X table; an unmasked vector sends its pending message, with MSI-X enabled and its function not masked; the low half's read
latches the high half of the GTC; a register written in part is rejected, an address that holds none is ignored. -/
def Obligations.RegistersTakeWrites : Prop :=
  let rejected (s t : State) : Prop :=
    t.link.setup = { s.link.setup with rejects := satN 4294967295 (s.link.setup.rejects + 1) } ∧ RouterOnly s t
  (∀ (s : State), clocked s = true → s.link.up = true →
    Does .enable s fun t =>
      if s.link.setup.locked = true then rejected s t
      else if s.link.setup.enable = true then t = s
      else if addr64 s.link.setup.rstLo s.link.setup.rstHi = 0
          ∨ addr64 s.link.setup.dbLo s.link.setup.dbHi = 0 then t = onSetup s fun x => { x with err := true }
      else
        t.link.setup = { s.link.setup with enable := true, err := false } ∧ t.link.tableDue = true ∧ t.link.silent = 0 ∧ t.link.silenceMs = s.link.setup.silence
          ∧ t.link.pollDue = s.time.gtc ∧ t.link.allowAt = none ∧ t.link.dbGen = none
          ∧ t = { s with link := t.link })
  ∧ (∀ (s : State) (v : Word32), clocked s = true → s.link.up = true →
    Does (.setupLock v) s fun t =>
      if v.toNat % 65536 = 0x4C4B then (if s.link.setup.locked = true then rejected s t else t = onSetup s fun x => { x with locked := true }) else t = s)
  ∧ (∀ (s : State) (src : Nat) (v : Word16), clocked s = true → s.link.up = true → src < 256 →
    Does (.eventRateWrite src v) s fun t =>
      if sourceReserved src = true then t = s
      else if s.link.setup.locked = true then rejected s t
      else
        rateOf t src = v.toNat ∧ tokensOf t src ≤ bits v.toNat 13 8 ∧ (∀ k, k ≠ src → rateOf t k = rateOf s k ∧ tokensOf t k = tokensOf s k)
          ∧ t = { s with router := t.router })
  ∧ (∀ (s : State) (k : Nat) (v : Word32), clocked s = true → s.link.up = true → k < 64 →
    Does (.vectorCtrl k v) s fun t =>
      msixOf t k = { msixOf s k with ctrl := v &&& 1 } ∧ (∀ j, j ≠ k → msixOf t j = msixOf s j)
        ∧ (if v.getLsbD 0 = false ∧ k ∈ s.link.pba ∧ s.link.cfg.msixEnable = true ∧ s.link.cfg.msixMask = false then
             k ∉ t.link.pba ∧ t.link.hostMem =
               (hostWrite s ((msixOf s k).addrLo.toNat / 4 * 4 + (msixOf s k).addrHi.toNat * 4294967296) (toLe (msixOf s k).data.toNat 4)).link.hostMem
           else t.link.pba = s.link.pba ∧ t.link.hostMem = s.link.hostMem)
        ∧ t = { s with link := t.link })
  ∧ (∀ (s : State), clocked s = true → s.link.up = true →
    Does .timeGtcLoRead s fun t => t = s.onTime fun x => { x with hiLatch := s.time.gtc / 4294967296 })
  ∧ (∀ (s : State) (off : Nat) (bs : List Byte), clocked s = true → s.link.up = true → bs.length = 4 → off + 4 ≤ 65536 → writableReg off = some (off, 4) →
    Does (.bar0Write off bs) s fun t => t = writeReg off (leAt bs 0 4) s)
  ∧ (∀ (s : State) (bs : List Byte), clocked s = true → s.link.up = true → bs.length = 4 → s.link.setup.locked = false →
    Does (.bar0Write 0x108 bs) s fun t => t = onSetup s fun x => { x with deviceId := leAt bs 0 4 % 16384 })
  ∧ (∀ (s : State) (bs : List Byte), clocked s = true → s.link.up = true → bs.length = 4 → s.link.setup.locked = false → s.link.setup.enable = false →
    Does (.bar0Write 0x110 bs) s fun t => t = onSetup s fun x => { x with rstLo := w32 (leAt bs 0 4 / 4096 * 4096) })
  ∧ (∀ (s : State) (bs : List Byte), clocked s = true → s.link.up = true → bs.length = 4 →
    Does (.bar0Write 0x20C bs) s fun t =>
      if s.link.setup.locked = false ∧ 10 ≤ leAt bs 0 4 % 1048576 ∧ leAt bs 0 4 % 1048576 ≤ 1000000 then
        t = s.onTime fun x => { x with lateTol := leAt bs 0 4 % 1048576 }
      else rejected s t)
  ∧ (∀ (s : State) (off : Nat) (b : Byte), clocked s = true → s.link.up = true → writableReg off = some (off, 4) → off < 65536 →
    Does (.bar0Write off [b]) s fun t => rejected s t)
  ∧ (∀ (s : State) (off : Nat) (bs : List Byte), clocked s = true → off + bs.length ≤ 65536 → (∀ i, i < bs.length → writableReg (off + i) = none) →
    Does (.bar0Write off bs) s fun t => t = s)
  ∧ (∀ (s : State) (off : Nat) (bs : List Byte), 65536 < off + bs.length → exec (.bar0Write off bs) s = .fault (.outsideBar0 off))
  ∧ (∀ (s : State), clocked s = true → s.link.up = true → s.link.setup.locked = false → s.link.setup.enable = false →
      addr64 s.link.setup.rstLo s.link.setup.rstHi ≠ 0 → addr64 s.link.setup.dbLo s.link.setup.dbHi ≠ 0 →
    Does .enable s fun t => t.link.setup = { s.link.setup with enable := true, err := false } ∧ t.link.tableDue = true)
  ∧ (∀ (s : State) (v : Word32), clocked s = true → s.link.up = true → v.toNat % 65536 = 0x4C4B → s.link.setup.locked = false →
    Does (.setupLock v) s fun t => t = onSetup s fun x => { x with locked := true })
  ∧ (∀ (s : State) (src : Nat) (v : Word16), clocked s = true → s.link.up = true → src < 256 → sourceReserved src = false → s.link.setup.locked = false →
    Does (.eventRateWrite src v) s fun t => rateOf t src = v.toNat ∧ t = { s with router := t.router })

/-- PTM_DIALOGUE, PTM_RESPONSE, PTM_FAIL and TIME_UNSYNC (R385, R386, R388): a dialogue begins every INTERVAL; its response sets the trim's rate value within
its range and corrects the error, by a slew where it is within STEP_LIMIT and the time is synchronised, else by a step, a multiple of 3,200; a failed one, or
a response 10 ms or more after its dialogue began, changes no time; without a good one for HOLDOVER, SYNCED clears. -/
def Obligations.TimeFollowsTheHost : Prop :=
  (∀ (s : State), clocked s = true → s.fw.rind = .running → s.link.up = true → s.link.ptm = true → s.time.auto = true → s.time.dialogue = none →
    Does .ptmDialogue s fun t =>
      t = (if s.time.dialogueAt + s.time.interval * 400000 ≤ s.time.gtc then
             s.onTime fun x => { x with dialogue := some s.time.gtc, dialogueAt := s.time.gtc } else s))
  ∧ (∀ (s : State) (ns d : Nat), clocked s = true → s.fw.rind = .running → s.time.dialogue = some d → s.time.gtc < d + 4000000 →
    Does (.ptmResponse ns) s fun t =>
      (let e := hostTicks ns - (s.time.gtc : Int)
       if e.natAbs ≤ s.time.stepLimit ∧ s.time.synced = true then
         t.time.gtc = s.time.gtc ∧ t.time.slewLeft = e * 100000000 ∧ t.time.goodAt = s.time.gtc ∧ t.time.stepCount = s.time.stepCount ∧ t.press = s.press
       else
         t.time.gtc = (((s.time.gtc : Int) + stepOf e) % 18446744073709551616).toNat ∧ stepOf e % 3200 = 0 ∧ (e - stepOf e).natAbs ≤ 1600
           ∧ t.time.synced = true ∧ t.time.stepCount = satN 65535 (s.time.stepCount + 1))
      ∧ t.time.dialogue = none ∧ t.time.rateTrim.natAbs ≤ trimRange s ∧ t.time.lastCorr = satErr (hostTicks ns - (s.time.gtc : Int))
      ∧ (∀ f ∈ s.link.flights, f.phase = .dialogue → ∀ g ∈ t.link.flights, g.origin = .host → g.id ≠ f.id)
      ∧ ∀ u, (leafOf t u).st = (leafOf s u).st ∧ (leafOf t u).gate = (leafOf s u).gate)
  ∧ (∀ (s : State) (ns d : Nat), clocked s = true → s.fw.rind = .running → s.time.dialogue = some d → d + 4000000 ≤ s.time.gtc →
    Does (.ptmResponse ns) s fun t => t.time = { s.time with dialogue := none } ∧ t.press = s.press)
  ∧ (∀ (s : State) (d : Nat), clocked s = true → s.fw.rind = .running → s.time.dialogue = some d →
    Does .ptmFail s fun t =>
      t.time = { s.time with dialogue := none } ∧ t.press = s.press
        ∧ ∀ f ∈ s.link.flights, f.phase = .dialogue → ∀ g ∈ t.link.flights, g.origin = .host → g.id ≠ f.id)
  ∧ (∀ (s : State), clocked s = true → s.fw.rind = .running →
    Does .timeUnsync s fun t =>
      if s.time.synced = true ∧ s.time.goodAt + holdover s ≤ s.time.gtc then RouterOnly { s with time := { s.time with synced := false } } t else t = s)
  ∧ (∀ (s : State), clocked s = true → s.fw.rind = .running → s.link.up = true → s.link.ptm = true → s.time.auto = true → s.time.dialogue = none →
      s.time.dialogueAt + s.time.interval * 400000 ≤ s.time.gtc →
    Does .ptmDialogue s fun t => t = s.onTime fun x => { x with dialogue := some s.time.gtc, dialogueAt := s.time.gtc })
  ∧ (∀ (s : State) (ns d : Nat), clocked s = true → s.fw.rind = .running → s.time.dialogue = some d → s.time.gtc < d + 4000000 → s.time.synced = true →
      (hostTicks ns - (s.time.gtc : Int)).natAbs ≤ s.time.stepLimit →
    Does (.ptmResponse ns) s fun t =>
      t.time.slewLeft = (hostTicks ns - (s.time.gtc : Int)) * 100000000 ∧ t.time.goodAt = s.time.gtc ∧ t.time.dialogue = none ∧ t.time.gtc = s.time.gtc)
  ∧ (∀ (s : State), clocked s = true → s.fw.rind = .running → s.time.synced = true → s.time.goodAt + holdover s ≤ s.time.gtc →
    Does .timeUnsync s fun t => t.time = { s.time with synced := false } ∧ t.press = s.press)

/-! ## The two-wire bus -/

/-- The reads of the two-wire bus (R467, R468, R469, R470, R472, R475, R476): each answers with its block. A management read of the status word clears what was
latched; one of RESULT returns a done class to idle; CAVE_READ moves the class's pointer past the records it returned. A code that is not served is NACKed. -/
def Obligations.BusReads : Prop :=
  (∀ (s : State) (cls : BusClass), BusServes s cls 0x00 → Does (.ident cls) s fun t => t = s.onBus fun b => { b with reply := .data (identBlock s) })
  ∧ (∀ (s : State), BusServes s .management 0x01 →
      Does (.statusWord .management) s fun t => t = s.onBus fun b => { b with reply := .data (toLe (statusWord s).toNat 2), latched := 0 })
  ∧ (∀ (s : State), BusServes s .diagnostic 0x01 →
      Does (.statusWord .diagnostic) s fun t => t = s.onBus fun b => { b with reply := .data (toLe (statusWord s).toNat 2) })
  ∧ (∀ (s : State) (cls : BusClass), BusServes s cls 0x02 →
      Does (.notifyMaskRead cls) s fun t => t = s.onBus fun b => { b with reply := .data (toLe s.bus.notifyMask.toNat 2) })
  ∧ (∀ (s : State) (cls : BusClass), BusServes s cls 0x08 →
      Does (.result cls) s fun t =>
        t.bus.reply = .data (resultBlock (busClass s cls)) ∧ (busClass t cls).rState = (if (busClass s cls).rState = 2 then 0 else (busClass s cls).rState)
          ∧ { busClass t cls with rState := (busClass s cls).rState } = busClass s cls ∧ t = { s with bus := t.bus })
  ∧ (∀ (s : State) (cls : BusClass), BusServes s cls 0x11 →
      Does (.telemRead cls) s fun t => t = s.onBus fun b => { b with reply := .data (telemBlock s (busClass s cls).unit) })
  ∧ (∀ (s : State) (cls : BusClass), BusServes s cls 0x21 →
      Does (.caveRead cls) s fun t =>
        t.bus.reply = .data (caveBlock s (busClass s cls))
          ∧ (∀ r, (caveBlockRecs s (busClass s cls)).getLast? = some r → (busClass t cls).cavePtr = r.seq + 1)
          ∧ (caveBlockRecs s (busClass s cls) = [] → busClass t cls = busClass s cls) ∧ t = { s with bus := t.bus })
  ∧ (∀ (s : State) (cls : BusClass), BusServes s cls 0x50 →
      Does (.powerSettingsRead cls) s fun t => t = s.onBus fun b => { b with reply := .data (toLe s.nvm.vWarn 4 ++ toLe s.nvm.wakeTimer 4) })
  ∧ (∀ (s : State) (cls : BusClass) (code : Byte), clocked s = true → busServed s cls code.toNat = false →
      Does (.smbUnservedCommand cls code) s fun t => t = s.onBus fun b => { b with reply := .nackCode })

/-- The writes of the two-wire bus that are no bulk (R403, R406, R460, R461, R469, R470, R471, R472, R473, R475, R477): NOTIFY_MASK, the pointers, a clear of
the Cave, a command to a unit whose leaves all grant BUS_CTRL, the power settings. One whose length is wrong is NACKed, one with a bad PEC is NACKed and
counted, and one for a class whose RESULT is pending is NACKed at its code: none of them acts. -/
def Obligations.BusWrites : Prop :=
  (∀ (s : State) (cls : BusClass) (w : BusWrite), BusTakes s cls 0x02 w → w.bytes.length = 2 →
    Does (.notifyMaskWrite cls w) s fun t => BusCompletes s t cls stOk 0 ∧ t.bus.notifyMask = BitVec.ofNat 16 (leAt w.bytes 0 2) ∧ t = { s with bus := t.bus })
  ∧ (∀ (s : State) (cls : BusClass) (w : BusWrite), BusServes s cls 0x10 → PecAccepted s w → w.bytes.length = 1 →
    Does (.telemSelect cls w) s fun t =>
      busClass t cls = { busClass s cls with unit := byteAt w.bytes 0 } ∧ t.bus.reply = .ack ∧ t = { s with bus := t.bus })
  ∧ (∀ (s : State) (cls : BusClass) (w : BusWrite), BusServes s cls 0x20 → PecAccepted s w → w.bytes.length = 8 →
    Does (.caveSelect cls w) s fun t =>
      t.cave.open_ = none ∧ (busClass t cls).caveFlags = byteAt w.bytes 4 ∧ t.bus.reply = .ack
        ∧ (busClass t cls).cavePtr = (if bit (byteAt w.bytes 4) 2 = true then visibleSeq t.cave else leAt w.bytes 0 4)
        ∧ t = { s with cave := t.cave, bus := t.bus, vat := t.vat, draws := t.draws })
  ∧ (∀ (s : State) (cls : BusClass) (w : BusWrite), BusTakes s cls 0x22 w → w.bytes = [0x43] → s.fw.paste = .serving →
    Does (.caveClear cls w) s fun t =>
      BusPends s t cls ∧ t.link.flights = s.link.flights ++ [{ id := s.link.nextFlight, origin := .bus cls, op := .logClear, sub := ownSub 0 0 0 [], phase := .waiting }]
        ∧ t.cave = s.cave ∧ t.press = s.press)
  ∧ (∀ (s : State) (cls : BusClass) (w : BusWrite), BusTakes s cls 0x22 w → w.bytes = [0x43] → s.fw.paste ≠ .serving → s.fw.rind = .running →
      s.power.brownout = false → s.cave.clearing = false →
    Does (.caveClear cls w) s fun t =>
      (busClass t cls).rState = 2 ∧ (busClass t cls).rStatus = stOk ∧ t.press = s.press ∧ t.nvm = s.nvm
        ∧ ∃ r, (heldRecs t.cave).getLast? = some r ∧ r.code = evClear ∧ r.p0 = 2 ∧ (busClass t cls).rResult = w32 r.seq ∧ visibleSeq t.cave = r.seq)
  ∧ (∀ (s : State) (cls : BusClass) (w : BusWrite), BusTakes s cls 0x30 w → w.bytes.length = 6 →
    Does (.unitCmd cls w) s fun t =>
      let h := w32 (leAt w.bytes 0 4)
      let a := byteAt w.bytes 4
      let op : Op := if a = 1 then .unitOn else .unitOff
      (2 < a → BusCompletes s t cls stRange 0)
        ∧ (a ≤ 2 → ∀ st, checkHandle s op 0 h = some st → BusCompletes s t cls st 0)
        ∧ (a ≤ 2 → checkHandle s op 0 h = none → busControls s (handleUnit h) = false → BusCompletes s t cls stEnvelope 0)
        ∧ (a ≤ 2 → checkHandle s op 0 h = none → busControls s (handleUnit h) = true → ∀ st, check6 s op = some st → BusCompletes s t cls st 0)
        ∧ (a ≤ 2 → checkHandle s op 0 h = none → busControls s (handleUnit h) = true → check6 s op = none →
            BusPends s t cls ∧ t.link.flights = s.link.flights ++
              [{ id := s.link.nextFlight, origin := .bus cls, op := op, sub := ownSub h (if a = 2 then 4 else 0) 0 [], phase := .waiting }])
        ∧ t.press = s.press)
  ∧ (∀ (s : State) (cls : BusClass) (w : BusWrite), BusTakes s cls 0x50 w → w.bytes.length = 8 →
    Does (.powerSettingsWrite cls w) s fun t =>
      if leAt w.bytes 0 4 < 4500 ∨ 9000 < leAt w.bytes 0 4 ∨ 16777215 < leAt w.bytes 4 4 then BusCompletes s t cls stRange 0 ∧ t.nvm = s.nvm
      else if s.fw.rind ≠ .running then BusCompletes s t cls stBusy 0 ∧ t.nvm = s.nvm
      else if s.power.brownout = true then BusPends s t cls ∧ t.bus.held = some (.settings (leAt w.bytes 0 4) (leAt w.bytes 4 4)) ∧ t.nvm = s.nvm
      else BusCompletes s t cls stOk 0 ∧ t.nvm = { s.nvm with vWarn := leAt w.bytes 0 4, wakeTimer := leAt w.bytes 4 4 })
  ∧ (∀ (s : State) (cls : BusClass) (w : BusWrite), BusServes s cls 0x10 → w.bytes.length ≠ 1 →
    Does (.telemSelect cls w) s fun t => t = s.onBus fun b => { b with reply := .nackData })
  ∧ (∀ (s : State) (cls : BusClass) (w : BusWrite), BusServes s cls 0x10 → w.bytes.length = 1 → w.pec = .bad →
    Does (.telemSelect cls w) s fun t => t = s.onBus fun b => { b with reply := .nackPec, pecErr := satN 4294967295 (b.pecErr + 1) })
  ∧ (∀ (s : State) (cls : BusClass) (w : BusWrite), BusServes s cls 0x30 → (busClass s cls).rState = 1 →
    Does (.unitCmd cls w) s fun t => t = s.onBus fun b => { b with reply := .nackCode })
  ∧ (∀ (s : State) (cls : BusClass) (w : BusWrite) (h : Word32) (op : Op), BusTakes s cls 0x30 w → w.bytes.length = 6 → byteAt w.bytes 4 ≤ 2 →
      h = w32 (leAt w.bytes 0 4) → op = (if byteAt w.bytes 4 = 1 then .unitOn else .unitOff) → checkHandle s op 0 h = none
          → busControls s (handleUnit h) = true →
      (s.fw.safeHold = true → op = .unitOff) → (op.needsRind = true → s.fw.rind = .running) →
    Does (.unitCmd cls w) s fun t =>
      BusPends s t cls ∧ t.link.flights = s.link.flights ++
        [{ id := s.link.nextFlight, origin := .bus cls, op := op, sub := ownSub h (if byteAt w.bytes 4 = 2 then 4 else 0) 0 [], phase := .waiting }])
  ∧ (∀ (s : State) (cls : BusClass) (w : BusWrite), BusTakes s cls 0x50 w → w.bytes.length = 8 → 4500 ≤ leAt w.bytes 0 4 → leAt w.bytes 0 4 ≤ 9000 →
      leAt w.bytes 4 4 ≤ 16777215 → s.fw.rind = .running → s.power.brownout = false →
    Does (.powerSettingsWrite cls w) s fun t =>
      BusCompletes s t cls stOk 0 ∧ t.nvm = { s.nvm with vWarn := leAt w.bytes 0 4, wakeTimer := leAt w.bytes 4 4 })

/-- BULK_OPEN, BULK_CHUNK, BULK_COMMIT and BULK_SESSION_TIMEOUT (R416, R419, R420, R474): a session is opened for a kind that may be opened, takes its chunks
in their order into bulk tiles or its slot, answers the offset it expects to any other, and once complete is committed: a profile becomes the command
PROFILE_LOAD of the bus, a Paste image that verifies starts Paste, a Rind image restarts the boot chain. In SAFE_HOLD a profile or a Paste image is refused
(R432). It ends 60 s after its last chunk. -/
def Obligations.BulkSessions : Prop :=
  (∀ (s : State) (cls : BusClass) (w : BusWrite), BusTakes s cls 0x40 w → w.bytes.length = 8 →
    Does (.bulkOpen cls w) s fun t =>
      if bulkRefused s (byteAt w.bytes 0) = true then BusCompletes s t cls stState 0 ∧ t.bus.bulk = s.bus.bulk
      else if 2 < byteAt w.bytes 0 ∨ bulkLimit (byteAt w.bytes 0) < leAt w.bytes 4 4 then BusCompletes s t cls stRange 0 ∧ t.bus.bulk = s.bus.bulk
      else
        BusCompletes s t cls stOk 0
          ∧ t.bus.bulk = some { kind := byteAt w.bytes 0, total := leAt w.bytes 4 4, bytes := [], at_ := s.time.gtc }
          ∧ (byteAt w.bytes 0 ≠ 0 → (imageSlot t.nvm (bulkTarget (byteAt w.bytes 0)) (bulkSlot s (byteAt w.bytes 0))).verified = none))
  ∧ (∀ (s : State) (cls : BusClass) (w : BusWrite) (b : Bulk), BusTakes s cls 0x41 w → 5 ≤ w.bytes.length → w.bytes.length ≤ 244 → s.bus.bulk = some b →
    Does (.bulkChunk cls w) s fun t =>
      if leAt w.bytes 0 4 ≠ b.bytes.length ∨ b.total < b.bytes.length + (w.bytes.length - 4) then
        BusCompletes s t cls stRange (w32 b.bytes.length) ∧ t.bus.bulk = some { b with at_ := s.time.gtc }
      else if s.power.brownout = true ∧ b.kind ≠ 0 then BusPends s t cls ∧ t.bus.held = some (.chunk (w.bytes.drop 4))
      else if b.kind = 0 ∧ tilesAvailable s 69 (tilesFor (b.bytes.length + (w.bytes.length - 4)) - b.tiles.length) = false then
        BusCompletes s t cls stBusy 0 ∧ t.bus.bulk = some { b with at_ := s.time.gtc }
      else
        BusCompletes s t cls stOk 0
          ∧ (∃ ts, t.bus.bulk = some { b with bytes := b.bytes ++ w.bytes.drop 4, at_ := s.time.gtc, tiles := b.tiles ++ ts } ∧ (b.kind ≠ 0 → ts = []))
          ∧ (b.kind = 0 → t.nvm = s.nvm)
          ∧ (b.kind ≠ 0 → imageSlot t.nvm (bulkTarget b.kind) (bulkSlot s b.kind) =
              { writeChunk (imageSlot s.nvm (bulkTarget b.kind) (bulkSlot s b.kind)) b.bytes.length (w.bytes.drop 4) with verified := none }))
  ∧ (∀ (s : State) (cls : BusClass) (w : BusWrite) (b : Bulk), BusTakes s cls 0x42 w → s.bus.bulk = some b → w.bytes = [BitVec.ofNat 8 b.kind] → b.kind ≤ 2 →
      b.bytes.length = b.total → bulkRefused s b.kind = false → bulkState s b.kind = none → (s.power.brownout = true → b.kind = 0) →
      (∀ g ∈ s.link.flights, g.id < s.link.nextFlight) →
    Does (.bulkCommit cls w) s fun t =>
      t.bus.bulk = none
        ∧ (b.kind = 0 → BusPends s t cls ∧ t.link.flights = s.link.flights ++
            [{ id := s.link.nextFlight, origin := .bus cls, op := .profileLoad,
               sub := { ownSub 0 0 0 [] with bufAddr := 1, bufLen := b.bytes.length, data := b.bytes }, phase := .waiting, tiles := b.tiles }])
        ∧ (b.kind ≠ 0 → ∀ c, imageCheck s (bulkTarget b.kind) (imageSlot s.nvm (bulkTarget b.kind) (bulkSlot s b.kind)) = some c →
            BusCompletes s t cls stAuth (w32 c) ∧ t.nvm = s.nvm)
        ∧ (b.kind = 1 → imageCheck s 1 (imageSlot s.nvm 1 (bulkSlot s 1)) = none
            → BusCompletes s t cls stOk (w32 (verifiedImage (imageSlot s.nvm 1 (bulkSlot s 1))).version)
            ∧ t.power.booting = true ∧ (imageSlot t.nvm 1 (bulkSlot s 1)).verified = some (verifiedImage (imageSlot s.nvm 1 (bulkSlot s 1))))
        ∧ (b.kind = 2 → imageCheck s 0 (imageSlot s.nvm 0 (bulkSlot s 2)) = none →
            t.fw.paste = .serving ∧ t.fw.pasteSlot = bulkSlot s 2 ∧ t.fw.selfCheckDue = true))
  ∧ (∀ (s : State) (cls : BusClass) (w : BusWrite) (b : Bulk), BusTakes s cls 0x42 w → s.bus.bulk = some b → w.bytes = [BitVec.ofNat 8 b.kind] → b.kind ≤ 2 →
      b.bytes.length ≠ b.total →
    Does (.bulkCommit cls w) s fun t => BusCompletes s t cls stRange 0 ∧ t.bus.bulk = some b)
  ∧ (∀ (s : State) (b : Bulk), clocked s = true → s.bus.bulk = some b →
    Does .bulkSessionTimeout s fun t => if b.at_ + 24000000000 ≤ s.time.gtc then t.bus.bulk = none ∧ t.nvm = s.nvm ∧ t.press = s.press else t = s)
  ∧ (∀ (s : State) (cls : BusClass) (w : BusWrite), BusTakes s cls 0x40 w → w.bytes.length = 8 → bulkRefused s (byteAt w.bytes 0) = false
      → byteAt w.bytes 0 ≤ 2 →
      leAt w.bytes 4 4 ≤ bulkLimit (byteAt w.bytes 0) →
    Does (.bulkOpen cls w) s fun t =>
      BusCompletes s t cls stOk 0 ∧ t.bus.bulk = some { kind := byteAt w.bytes 0, total := leAt w.bytes 4 4, bytes := [], at_ := s.time.gtc })
  ∧ (∀ (s : State) (cls : BusClass) (w : BusWrite) (b : Bulk), BusTakes s cls 0x41 w → 5 ≤ w.bytes.length → w.bytes.length ≤ 244 → s.bus.bulk = some b →
      leAt w.bytes 0 4 = b.bytes.length → b.bytes.length + (w.bytes.length - 4) ≤ b.total → s.power.brownout = false →
      (b.kind = 0 → tilesAvailable s 69 (tilesFor (b.bytes.length + (w.bytes.length - 4)) - b.tiles.length) = true) →
    Does (.bulkChunk cls w) s fun t => BusCompletes s t cls stOk 0 ∧ t.bus.bulk.map (·.bytes) = some (b.bytes ++ w.bytes.drop 4))
  ∧ (∀ (s : State) (cls : BusClass) (w : BusWrite) (b : Bulk), BusTakes s cls 0x42 w → s.bus.bulk = some b → w.bytes = [0x00] → b.kind = 0 →
      b.bytes.length = b.total → bulkRefused s 0 = false → s.fw.safeHold = false → s.fw.rind = .running → (∀ g ∈ s.link.flights, g.id < s.link.nextFlight) →
    Does (.bulkCommit cls w) s fun t => t.bus.bulk = none ∧ BusPends s t cls ∧ ∃ g ∈ t.link.flights, g.id = s.link.nextFlight ∧ g.op = .profileLoad
        ∧ g.origin = .bus cls)
  ∧ (∀ (s : State) (b : Bulk), clocked s = true → s.bus.bulk = some b → b.at_ + 24000000000 ≤ s.time.gtc →
    Does .bulkSessionTimeout s fun t => t.bus.bulk = none ∧ t.nvm = s.nvm ∧ t.press = s.press)
  ∧ (∀ (s : State) (cls : BusClass) (w : BusWrite) (b : Bulk), BusTakes s cls 0x42 w → s.bus.bulk = some b → w.bytes = [BitVec.ofNat 8 b.kind] →
      (b.kind = 0 ∨ b.kind = 2) → b.bytes.length = b.total → bulkRefused s b.kind = false → s.fw.safeHold = true →
    Does (.bulkCommit cls w) s fun t => BusCompletes s t cls stState 0 ∧ t.bus.bulk = some b)

/-- HOST_NOTIFY, HANG_RECOVERY, SDA_RELEASE and SCL_TIMEOUT (R461, R476, R477, R478, R479, R480, R481): a due message goes out with the status word; an
attempt that is lost is made again after 1 to 8 ms, and dropped after the eighth. A bus that stays stuck is reported; a transaction that hangs is discarded.
-/
def Obligations.NotifiesAndHangs : Prop :=
  (∀ (s : State), clocked s = true → s.bus.notifyDue = true → s.bus.backoffUntil ≤ s.time.gtc → s.bus.hangUntil ≤ s.time.gtc →
    Does (.hostNotify .sent) s fun t =>
      t = s.onBus fun b =>
        { b with notifyDue := false, attempts := 0, notified := some (BitVec.ofNat 8 (2 * (64 + s.fw.addrCode % 16)), statusWord s) })
  ∧ (∀ (s : State) (o : NotifyOutcome), clocked s = true → s.bus.notifyDue = true → s.bus.backoffUntil ≤ s.time.gtc → s.bus.hangUntil ≤ s.time.gtc → o ≠ .sent →
    Does (.hostNotify o) s fun t =>
      if 7 ≤ s.bus.attempts then t.bus.notifyDue = false ∧ t.bus.attempts = 0 ∧ RouterOnly s t
      else
        t.bus.notifyDue = true ∧ t.bus.attempts = s.bus.attempts + 1 ∧ s.time.gtc + 400000 ≤ t.bus.backoffUntil ∧ t.bus.backoffUntil ≤ s.time.gtc + 3200000
          ∧ t = { s with bus := t.bus, draws := t.draws })
  ∧ (∀ (s : State) (n : Nat), clocked s = true → s.bus.hangUntil ≤ s.time.gtc → 1 ≤ n → n ≤ 9 →
    Does (.hangRecovery (.sdaLow n)) s fun t => t = s.onBus fun b => { b with reply := .discarded })
  ∧ (∀ (s : State), clocked s = true → s.bus.hangUntil ≤ s.time.gtc →
    Does (.hangRecovery .sdaStuck) s fun t => t = raise (s.onBus fun b => { b with hangUntil := s.time.gtc + 40000000 }) 112 evBusStuck 0 0 0)
  ∧ (∀ (s : State), clocked s = true → s.bus.hangUntil ≤ s.time.gtc → Does (.hangRecovery .sclStuck) s fun t => t = raise s 112 evBusStuck 1 0 0)
  ∧ (∀ (s : State), clocked s = true → Does .sdaRelease s fun t => t = s.onBus fun b => { b with reply := .discarded })
  ∧ (∀ (s : State), clocked s = true → Does .sclTimeout s fun t => t = s.onBus fun b => { b with reply := .discarded })

/-! ## Commands of the host -/

/-- A descriptor of any opcode while Paste serves (R29, R294, R320, R322, R338, R340, R344): its tag in use or its generation wrong, it is answered TAG_BUSY;
a common check that fails answers it with that check's status; both with RESULT 0 and no other effect. One that names a later time waits in the Press, and one
behind an earlier command that has not started, a FENCE, or with ORDERED any command of its ring, waits in the in-flight table (R321, R347), as does one for
whose buffer there are no bulk tiles: its wait is timed from now on. -/
def Obligations.DescriptorsAreChecked : Prop :=
  ∀ (s : State) (op : Op) (sub : Submission), clocked s = true → s.fw.paste = .serving → sub.wf = true →
    (tagRefused s sub = true → exec (hostRow op sub) s = .next (afterRow (refuseSub s sub stTagBusy)))
    ∧ (∀ st, tagRefused s sub = false → commonChecks s op sub = some st →
        exec (hostRow op sub) s = .next (afterRow (refuseSub (takeTag s sub) sub st)))
    ∧ (tagRefused s sub = false → commonChecks s op sub = none → CapturesCopied s →
        (∀ g ∈ s.link.flights, g.phase = .scheduled ∧ g.id < s.link.nextFlight) → heldBack (accepted s op sub) (flightFor s op sub) = true →
        exec (hostRow op sub) s = .next (serveTail (accepted s op sub)))
    ∧ (tagRefused s sub = false → commonChecks s op sub = none → CapturesCopied s →
        (∀ g ∈ s.link.flights, g.phase = .scheduled ∧ g.id < s.link.nextFlight) → heldBack (accepted s op sub) (flightFor s op sub) = false → sub.time ≠ 0
            → sub.fault = false →
        scheduledCount s < 256 → ¬ (s.power.brownout = true ∧ waitsForNvm op = true) →
        (bulkNeed (flightFor s op sub) = 0 ∨ tilesAvailable s 69 (bulkNeed (flightFor s op sub)) = true) →
        Serves (hostRow op sub) s fun t => Waits s t op sub .scheduled ∧ LinkOnly s t)
    ∧ (tagRefused s sub = false → commonChecks s op sub = none → CapturesCopied s → (∀ g ∈ s.link.flights, g.phase = .scheduled ∧ g.id < s.link.nextFlight) →
        heldBack (accepted s op sub) (flightFor s op sub) = false → bulkNeed (flightFor s op sub) ≠ 0 →
        tilesAvailable s 69 (bulkNeed (flightFor s op sub)) = false →
        Serves (hostRow op sub) s fun t =>
          LinkOnly s t ∧ ∃ g ∈ t.link.flights, g.id = s.link.nextFlight ∧ g.sub = sub ∧ g.phase = .waiting ∧ g.waitAt = some s.time.gtc)

/-- UNIT_ON and UNIT_OFF (R37, R39, R40, R55, R57, R59, R62, R138, R344, R348) of units whose leaves no command has been served in this tick: a unit in OFF
that nothing holds back enters ARM and its command waits for the end of the attempt, one on its way is answered OK, any other is refused; a turn-off turns a
unit off, or cancels the retry of one in COOL, ends a feed's loss and its re-arm on re-mating (R196, R204), and is answered OK. Of a group hoop they run its
sequences, unless a sequence runs near it or the turn-off is to be FAST. A command that has had its effect is answered as its tick ends, with the state word
as it then is. -/
def Obligations.UnitsTurnOnAndOff : Prop :=
  (∀ (s : State) (sub : Submission), HostReady s .unitOn sub → servedNow s (maskOf s (handleUnit sub.handle)) = false →
      isGroup s (handleUnit sub.handle) = false → Leads s (evalUnit s (handleUnit sub.handle)) →
    Serves (.unitOn sub) s fun t =>
      let u := handleUnit sub.handle
      let e := evalUnit s u
      let refused (st : Nat) : Prop := Acts s t .unitOn sub st ∧ t.press = { s.press with served := t.press.served }
      if (vleaf s e).st.active = true then refused stOk
      else if (vleaf s e).st ≠ .off then refused stState
      else match startRefusal s e with
        | some st => refused st
        | none =>
          if damagedMember s e = true then Acts s t .unitOn sub stState
          else (vleaf t e).st = .arm ∧ Waits s t .unitOn sub (.attempt u))
  ∧ (∀ (s : State) (sub : Submission), HostReady s .unitOn sub → handleUnit sub.handle ≠ 255 → servedNow s (maskOf s (handleUnit sub.handle)) = false →
      isGroup s (handleUnit sub.handle) = true →
    Serves (.unitOn sub) s fun t =>
      if sequenceNear s (handleUnit sub.handle) = true then Answers s t sub stBusy (stateWord s (handleUnit sub.handle))
      else Waits s t .unitOn sub (.sequence (handleUnit sub.handle)))
  ∧ (∀ (s : State) (sub : Submission), HostReady s .unitOn sub → handleUnit sub.handle = 255 →
    Serves (.unitOn sub) s fun t => Refused s t .unitOn sub stUnsupported)
  ∧ (∀ (s : State) (sub : Submission), HostReady s .unitOff sub → servedNow s (maskOf s (handleUnit sub.handle)) = false →
      isGroup s (handleUnit sub.handle) = false → Leads s (evalUnit s (handleUnit sub.handle)) →
    Serves (.unitOff sub) s fun t =>
      let u := handleUnit sub.handle
      let e := evalUnit s u
      Acts s t .unitOff sub stOk
        ∧ (vleaf t e).st = (if (vleaf s e).st.active = true then .off else (vleaf s e).st) ∧ ((vleaf s e).st = .cool → (vleaf t e).retryCancelled = true)
        ∧ (leafKind e = .feed → (leafOf t e).lost = false ∧ (leafOf t e).autoMate = false))
  ∧ (∀ (s : State) (sub : Submission), HostReady s .unitOff sub → servedNow s (maskOf s (handleUnit sub.handle)) = false →
      isGroup s (handleUnit sub.handle) = true →
    Serves (.unitOff sub) s fun t =>
      let u := handleUnit sub.handle
      if u = 255 ∨ flag sub 2 = true then Acts s t .unitOff sub (if (liveTargets s u).isEmpty = true then stState else stOk)
      else Waits s t .unitOff sub (.sequence u))
  ∧ (∀ (s : State) (op : Op) (sub : Submission), (op = .unitOn ∨ op = .unitOff) → HostReady s op sub → handleUnit sub.handle ≠ 255 →
      servedNow s (maskOf s (handleUnit sub.handle)) = true →
    Serves (hostRow op sub) s fun t => Waits s t op sub .deferred ∧ t.press = s.press)
  ∧ (∀ (s : State) (f : Flight) (st : Nat), f ∈ s.link.flights → (∀ g ∈ s.link.flights, g.id = f.id → g = f) → f.phase = .applied st → f.origin = .host →
      f.op ≠ .unitRetire → f.op ≠ .unitRestore →
      completionOf f.sub st f.sub.handle (defaultResult s f) ∈ Tbl.get [] (settle s).link.cqHeld (cqOf s f.sub.sq)
        ∧ ∀ g ∈ (settle s).link.flights, g.id ≠ f.id)

/-- UNIT_PWM and UNIT_RESET_LOCK (R41, R98, R99, R131, R183, R349, R351): a unit of one slot takes the period and the duty, or returns to steady drive with
them kept; a feed, a regulator and HOLD take none; a period out of range is refused. Both are answered as their tick ends. A lock is cleared with its retries
and, for a DAMAGE lock, its verdict; one that may not be overridden is refused, as is a unit that is in no lock. -/
def Obligations.PwmAndLockCommands : Prop :=
  (∀ (s : State) (sub : Submission) (e : Nat), HostReady s .unitPwm sub → targets s (handleUnit sub.handle) = [e] → leafKind e = .channel → Leads s e →
      (vleaf s e).st ≠ .retired → servedNow s (maskOf s (handleUnit sub.handle)) = false → flag sub 2 = false → 16000 ≤ arg sub 28 4 → arg sub 28 4 ≤ 8000000 →
      (∀ b, b < 4 → gateLoad s b ([e].filter fun e => bankOf e == b) (arg sub 28 4) ≤ 8000) →
    Serves (.unitPwm sub) s fun t =>
      Acts s t .unitPwm sub stOk
        ∧ (leafOf t e).pwm.set = true ∧ (leafOf t e).pwm.period = arg sub 28 4 ∧ (leafOf t e).pwm.duty = arg sub 32 2)
  ∧ (∀ (s : State) (sub : Submission) (e : Nat), HostReady s .unitPwm sub → targets s (handleUnit sub.handle) = [e] → leafKind e = .channel → Leads s e →
      (vleaf s e).st ≠ .retired → servedNow s (maskOf s (handleUnit sub.handle)) = false → flag sub 2 = true →
    Serves (.unitPwm sub) s fun t =>
      Acts s t .unitPwm sub stOk
        ∧ (leafOf t e).pwm.set = false ∧ (leafOf t e).pwm.period = (leafOf s e).pwm.period ∧ (leafOf t e).pwm.duty = (leafOf s e).pwm.duty)
  ∧ (∀ (s : State) (sub : Submission) (e : Nat), HostReady s .unitPwm sub → e ∈ targets s (handleUnit sub.handle) → leafKind e ≠ .channel →
    Serves (.unitPwm sub) s fun t => Refused s t .unitPwm sub stUnsupported)
  ∧ (∀ (s : State) (sub : Submission), HostReady s .unitPwm sub → (∀ e ∈ targets s (handleUnit sub.handle), leafKind e = .channel) → flag sub 2 = false →
      (arg sub 28 4 < 16000 ∨ 8000000 < arg sub 28 4) →
    Serves (.unitPwm sub) s fun t => Refused s t .unitPwm sub stRange)
  ∧ (∀ (s : State) (sub : Submission) (e : Nat), HostReady s .unitResetLock sub → targets s (handleUnit sub.handle) = [e] → Leads s e → (vleaf s e).st = .lock →
      servedNow s (maskOf s (handleUnit sub.handle)) = false → (damageLocked s e = true → flag sub 2 = true ∧ (leafOf s e).env.damageOverride = true) →
    Serves (.unitResetLock sub) s fun t =>
      Acts s t .unitResetLock sub stOk
        ∧ (vleaf t e).st = .off ∧ (vleaf t e).sub = 0 ∧ (vleaf t e).retries = 0 ∧ (vleaf t e).retryCancelled = false
        ∧ (damageLocked s e = true → leafKind e = .channel → ∀ m ∈ liveOf s e, (leafOf t m).diag.verdict = 0 ∧ (leafOf t m).diag.uncontrollable = false))
  ∧ (∀ (s : State) (sub : Submission), HostReady s .unitPwm sub → (∀ e ∈ targets s (handleUnit sub.handle), leafKind e = .channel) →
      liveTargets s (handleUnit sub.handle) ≠ [] → servedNow s (maskOf s (handleUnit sub.handle)) = false → flag sub 2 = true →
    Serves (.unitPwm sub) s fun t => Acts s t .unitPwm sub stOk)
  ∧ (∀ (s : State) (sub : Submission), HostReady s .unitResetLock sub → (∃ e ∈ targets s (handleUnit sub.handle), (vleaf s e).st = .lock) →
      (∀ e ∈ targets s (handleUnit sub.handle), damageLocked s e = false) → servedNow s (maskOf s (handleUnit sub.handle)) = false →
    Serves (.unitResetLock sub) s fun t => Acts s t .unitResetLock sub stOk)
  ∧ (∀ (s : State) (sub : Submission), HostReady s .unitResetLock sub → (∀ e ∈ targets s (handleUnit sub.handle), (vleaf s e).st ≠ .lock) →
    Serves (.unitResetLock sub) s fun t => Refused s t .unitResetLock sub stState)
  ∧ (∀ (s : State) (sub : Submission) (e : Nat), HostReady s .unitResetLock sub → e ∈ targets s (handleUnit sub.handle) → damageLocked s e = true →
      (flag sub 2 = false ∨ (leafOf s e).env.damageOverride = false) →
    Serves (.unitResetLock sub) s fun t => Refused s t .unitResetLock sub stEnvelope)

/-- HOOP_FORM, HOOP_EDIT, HOOP_DISSOLVE, UNIT_RETIRE and UNIT_RESTORE (R44, R61, R188, R190, R192, R350, R356, R357): what passes its checks is prepared and
waits for its swap, at which its command is answered; what does not is answered with the status of the first check that fails, and changes nothing. -/
def Obligations.TableChangesArePrepared : Prop :=
  let prepared (s t : State) (op : Op) (sub : Submission) (e : Edit) (hs : List Word32) : Prop :=
    Waits s t op sub .swap ∧ t.press.edits = s.press.edits ++ [{ flight := s.link.nextFlight, edit := e, handles := hs }] ∧ t.press.hoops = s.press.hoops
      ∧ t.press.gens = s.press.gens
  (∀ (s : State) (sub : Submission), HostReady s .hoopForm sub → arg sub 29 1 = 1 → 1 ≤ hoopCount sub → hoopCount sub ≤ 32 →
    Serves (.hoopForm sub) s fun t =>
      match hoopCheck s .hoopForm sub.flags 255 (some (arg sub 28 1)) (hoopTable sub) (hoopHandles sub) with
      | some r => Answers s t sub r.1 (r.2.getD (stateWord s 255)) ∧ t.press = s.press
      | none => prepared s t .hoopForm sub (.form (arg sub 28 1) (hoopTable sub)) (hoopHandles sub))
  ∧ (∀ (s : State) (sub : Submission), HostReady s .hoopForm sub → arg sub 29 1 = 1 → 1 ≤ hoopCount sub → hoopCount sub ≤ 32 →
      hoopCheck s .hoopForm sub.flags 255 (some (arg sub 28 1)) (hoopTable sub) (hoopHandles sub) = none →
    Serves (.hoopForm sub) s fun t => prepared s t .hoopForm sub (.form (arg sub 28 1) (hoopTable sub)) (hoopHandles sub))
  ∧ (∀ (s : State) (sub : Submission), HostReady s .hoopEdit sub → kindOf s (handleUnit sub.handle) = .group → 1 ≤ hoopCount sub → hoopCount sub ≤ 32 →
      hoopCheck s .hoopEdit sub.flags (handleUnit sub.handle) none (hoopTable sub) (hoopHandles sub) = none →
    Serves (.hoopEdit sub) s fun t => prepared s t .hoopEdit sub (.edit (handleUnit sub.handle) (hoopTable sub)) (hoopHandles sub))
  ∧ (∀ (s : State) (sub : Submission), HostReady s .hoopDissolve sub → kindOf s (handleUnit sub.handle) = .group
      → sequenceNear s (handleUnit sub.handle) = false →
    Serves (.hoopDissolve sub) s fun t => prepared s t .hoopDissolve sub (.dissolve (handleUnit sub.handle)) [])
  ∧ (∀ (s : State) (sub : Submission), HostReady s .unitRetire sub → flag sub 2 = false → isGroup s (handleUnit sub.handle) = false →
      ((vleaf s (evalUnit s (handleUnit sub.handle))).st = .off ∨ (vleaf s (evalUnit s (handleUnit sub.handle))).st = .lock) →
    Serves (.unitRetire sub) s fun t => prepared s t .unitRetire sub (.retire (handleUnit sub.handle)) [])
  ∧ (∀ (s : State) (sub : Submission), HostReady s .unitRestore sub → flag sub 2 = false → isGroup s (handleUnit sub.handle) = false →
      (vleaf s (evalUnit s (handleUnit sub.handle))).st = .retired → (∀ m ∈ groupOf s (evalUnit s (handleUnit sub.handle)), retiredDamaged s m = false) →
    Serves (.unitRestore sub) s fun t => prepared s t .unitRestore sub (.restore (handleUnit sub.handle)) [])
  ∧ (∀ (s : State) (sub : Submission), HostReady s .hoopForm sub → arg sub 29 1 = 0 → Serves (.hoopForm sub) s fun t => Refused s t .hoopForm sub stEnvelope)
  ∧ (∀ (s : State) (sub : Submission), HostReady s .hoopEdit sub → kindOf s (handleUnit sub.handle) = .group → 1 ≤ hoopCount sub → hoopCount sub ≤ 32 →
    Serves (.hoopEdit sub) s fun t =>
      match hoopCheck s .hoopEdit sub.flags (handleUnit sub.handle) none (hoopTable sub) (hoopHandles sub) with
      | some r => Answers s t sub r.1 (r.2.getD (stateWord s (handleUnit sub.handle))) ∧ t.press = s.press
      | none => prepared s t .hoopEdit sub (.edit (handleUnit sub.handle) (hoopTable sub)) (hoopHandles sub))
  ∧ (∀ (s : State) (sub : Submission), HostReady s .hoopDissolve sub →
    Serves (.hoopDissolve sub) s fun t =>
      match kindOf s (handleUnit sub.handle) with
      | .group =>
        if sequenceNear s (handleUnit sub.handle) = true then Refused s t .hoopDissolve sub stBusy else prepared s t .hoopDissolve sub (.dissolve (handleUnit sub.handle)) []
      | .parallel => Refused s t .hoopDissolve sub stEnvelope
      | _ => Refused s t .hoopDissolve sub stUnsupported)
  ∧ (∀ (s : State) (sub : Submission), HostReady s .unitRetire sub → flag sub 2 = false → isGroup s (handleUnit sub.handle) = false →
    Serves (.unitRetire sub) s fun t =>
      let u := handleUnit sub.handle
      let e := evalUnit s u
      if (vleaf s e).st = .off ∨ (vleaf s e).st = .lock then
        prepared s t .unitRetire sub (.retire u) [] ∧ t.nvm = s.nvm
      else Refused s t .unitRetire sub stState)
  ∧ (∀ (s : State) (sub : Submission) (n : Nat) (h : Hoop), HostReady s .unitRetire sub → flag sub 2 = true → handleUnit sub.handle < 64 →
      parallelOf s (handleUnit sub.handle) = some (n, h) →
    Serves (.unitRetire sub) s fun t =>
      let u := handleUnit sub.handle
      match retireMemberRefusal s u with
      | some st => Refused s t .unitRetire sub st
      | none => prepared s t .unitRetire sub (.retireMember n u) [] ∧ t.nvm = s.nvm)
  ∧ (∀ (s : State) (sub : Submission) (n : Nat) (h : Hoop), HostReady s .unitRestore sub → flag sub 2 = true → handleUnit sub.handle < 64 →
      parallelOf s (handleUnit sub.handle) = some (n, h) →
    Serves (.unitRestore sub) s fun t =>
      let u := handleUnit sub.handle
      if (leafOf s u).st ≠ .retired ∨ (vleaf s h.slot).st ≠ .off then Refused s t .unitRestore sub stState
      else if retiredDamaged s u = true ∧ ¬ (flag sub 3 = true ∧ (leafOf s (slotOf s u)).env.damageOverride = true) then Refused s t .unitRestore sub stEnvelope
      else prepared s t .unitRestore sub (.restoreMember n u) [] ∧ t.nvm = s.nvm)
  ∧ (∀ (s : State) (sub : Submission), HostReady s .unitRestore sub → flag sub 2 = false → isGroup s (handleUnit sub.handle) = false →
    Serves (.unitRestore sub) s fun t =>
      let u := handleUnit sub.handle
      let e := evalUnit s u
      if (vleaf s e).st ≠ .retired then Refused s t .unitRestore sub stState
      else if (∃ m ∈ groupOf s e, retiredDamaged s m = true) ∧ ¬ (flag sub 3 = true ∧ (leafOf s (slotOf s e)).env.damageOverride = true) then
        Refused s t .unitRestore sub stEnvelope
      else prepared s t .unitRestore sub (.restore u) [])
  ∧ (∀ (s : State) (op : Op) (sub : Submission), (op = .unitRetire ∨ op = .unitRestore) → HostReady s op sub → isGroup s (handleUnit sub.handle) = true →
    Serves (hostRow op sub) s fun t => Refused s t op sub stUnsupported)

/-- UNIT_ON, UNIT_OFF, UNIT_CONFIG_WRITE, UNIT_CONFIG_READ, TELEM_SNAPSHOT, LOG_READ, CAPTURE_READ and DIAG_RUN (R39, R257, R264, R297, R348, R353, R355,
R358, R362, R364, R372) where nothing stands in their way: an OFF unit whose start is not refused enters ARM and its command waits for the attempt's end; an
active unit is OFF; the pairs are taken; the block, record, log, capture or dump is written to the buffer, with the bytes or records in RESULT. -/
def Obligations.HostCommandsComplete : Prop :=
  (∀ (s : State) (sub : Submission), HostReady s .unitOn sub → servedNow s (maskOf s (handleUnit sub.handle)) = false →
      isGroup s (handleUnit sub.handle) = false → Leads s (evalUnit s (handleUnit sub.handle)) → (vleaf s (evalUnit s (handleUnit sub.handle))).st = .off →
      startRefusal s (evalUnit s (handleUnit sub.handle)) = none → damagedMember s (evalUnit s (handleUnit sub.handle)) = false →
    Serves (.unitOn sub) s fun t =>
      (vleaf t (evalUnit s (handleUnit sub.handle))).st = .arm ∧ Waits s t .unitOn sub (.attempt (handleUnit sub.handle)))
  ∧ (∀ (s : State) (sub : Submission), HostReady s .unitOff sub → servedNow s (maskOf s (handleUnit sub.handle)) = false →
      isGroup s (handleUnit sub.handle) = false → Leads s (evalUnit s (handleUnit sub.handle))
          → (vleaf s (evalUnit s (handleUnit sub.handle))).st.active = true →
    Serves (.unitOff sub) s fun t => (vleaf t (evalUnit s (handleUnit sub.handle))).st = .off ∧ Acts s t .unitOff sub stOk)
  ∧ (∀ (s : State) (sub : Submission), HostReady s .unitConfigWrite sub → flag sub 2 = false → isGroup s (handleUnit sub.handle) = false →
      1 ≤ (configPairs sub).length → (configPairs sub).length ≤ 64 → servedNow s (maskOf s (handleUnit sub.handle)) = false →
      firstFault (startOf s .unitConfigWrite sub) (handleUnit sub.handle) (targets s (handleUnit sub.handle)) (configPairs sub) = none →
    Serves (.unitConfigWrite sub) s fun t => Acts s t .unitConfigWrite sub stOk)
  ∧ (∀ (s : State) (sub : Submission), HostReady s .unitConfigRead sub → (configBlock s (handleUnit sub.handle)).length ≤ sub.bufLen →
    Serves (.unitConfigRead sub) s fun t =>
      Answers s t sub stOk (w32 (configBlock s (handleUnit sub.handle)).length)
        ∧ t.link.hostMem = Mem.write s.link.hostMem sub.bufAddr (configBlock s (handleUnit sub.handle)) ∧ LinkOnly s t)
  ∧ (∀ (s : State) (sub : Submission), HostReady s .telemSnapshot sub → flag sub 2 = false → (snapshotBytes s sub).length ≤ sub.bufLen →
    Serves (.telemSnapshot sub) s fun t =>
      Answers s t sub stOk (w32 (snapshotBytes s sub).length) ∧ t.link.hostMem = Mem.write s.link.hostMem sub.bufAddr (snapshotBytes s sub) ∧ LinkOnly s t)
  ∧ (∀ (s : State) (sub : Submission), HostReady s .logRead sub → s.link.up = true → 1 ≤ arg sub 32 4 → arg sub 32 4 ≤ 8192 →
      (logBytes s sub).length ≤ sub.bufLen → tilesAvailable s 69 (tilesFor (logBytes s sub).length) = true →
      (∀ a, sub.bufAddr ≤ a → a < sub.bufAddr + sub.bufLen → translated s a = true) →
    Serves (.logRead sub) s fun t =>
      Answers s t sub stOk (w32 (logRecordsFor s sub).length)
        ∧ (∀ i, i < (logBytes s sub).length → Tbl.find t.link.hostMem (sub.bufAddr + i) = some ((logBytes s sub).getD i 0)) ∧ LinkOnly s t)
  ∧ (∀ (s : State) (sub : Submission), HostReady s .captureRead sub → s.link.up = true → arg sub 28 1 ≤ 3 → (capOf s (arg sub 28 1)).state = .held →
      (captureBytes (arg sub 28 1) (capOf s (arg sub 28 1))).length ≤ sub.bufLen → (∀ r ∈ refsOf s (64 + arg sub 28 1), unreadable s r = false) →
      (∀ a, sub.bufAddr ≤ a → a < sub.bufAddr + sub.bufLen → translated s a = true) →
    Serves (.captureRead sub) s fun t =>
      Answers s t sub stOk (w32 (captureBytes (arg sub 28 1) (capOf s (arg sub 28 1))).length)
        ∧ (∀ i, i < (captureBytes (arg sub 28 1) (capOf s (arg sub 28 1))).length →
            Tbl.find t.link.hostMem (sub.bufAddr + i) = some ((captureBytes (arg sub 28 1) (capOf s (arg sub 28 1))).getD i 0))
        ∧ capOf t (arg sub 28 1) = (if flag sub 2 = true then {} else capOf s (arg sub 28 1)) ∧ t.press = s.press)
  ∧ (∀ (s : State) (sub : Submission), HostReady s .diagRun sub → arg sub 28 1 = 0 → 1376 ≤ sub.bufLen →
    Serves (.diagRun sub) s fun t => ∃ n, Answers s t sub stOk (w32 n) ∧ n ≤ 344 ∧ (∀ c, 344 ≤ c → cellOf t c = cellOf s c) ∧ t.press = s.press)
  ∧ (∀ (s : State) (sub : Submission), HostReady s .diagRun sub → arg sub 28 1 = 1 → 65536 ≤ sub.bufLen →
    Serves (.diagRun sub) s fun t =>
      Answers s t sub stOk 0 ∧ t.link.hostMem = Mem.write s.link.hostMem sub.bufAddr (tagDump (startOf s .diagRun sub)) ∧ LinkOnly s t)
  ∧ (∀ (s : State) (sub : Submission), HostReady s .diagRun sub → arg sub 28 1 = 2 → 1136 ≤ sub.bufLen →
    Serves (.diagRun sub) s fun t => Answers s t sub stOk 0 ∧ t.link.hostMem = Mem.write s.link.hostMem sub.bufAddr (lockDump s) ∧ LinkOnly s t)

/-- UNIT_CONFIG_WRITE and UNIT_CONFIG_READ (R271, R280, R353, R354, R355): a pair that passes is the value in force of the unit, or of its parallel hoop, from
then on; the first pair that fails is named by its field and index, and none is written; a write to the envelope is a SECURITY event besides. Window monitor
records are taken as they stand, or none of them, with the index of the first that is out of range. A read writes the configuration block of the unit. The
values are weighed in the state in which the command starts. -/
def Obligations.ConfigurationIsWrittenAndRead : Prop :=
  (∀ (s : State) (sub : Submission) (e id : Nat) (v : Word32), HostReady s .unitConfigWrite sub → flag sub 2 = false → targets s (handleUnit sub.handle) = [e] →
      isGroup s (handleUnit sub.handle) = false → Leads s e → servedNow s (maskOf s (handleUnit sub.handle)) = false → configPairs sub = [(id, v)] →
      firstFault (startOf s .unitConfigWrite sub) (handleUnit sub.handle) [e] [(id, v)] = none →
    Serves (.unitConfigWrite sub) s fun t =>
      Acts s t .unitConfigWrite sub stOk ∧ Tbl.find (softTable t e) id = some v
        ∧ ∀ k, k ≠ id → Tbl.find (softTable t e) k = Tbl.find (softTable s e) k)
  ∧ (∀ (s : State) (sub : Submission) (ts : List Nat), HostReady s .unitConfigWrite sub → flag sub 2 = false → handleUnit sub.handle ≠ 255 →
      ts = (if isGroup s (handleUnit sub.handle) then liveTargets s (handleUnit sub.handle) else targets s (handleUnit sub.handle)) → ts ≠ [] →
      (∀ e ∈ ts, Leads s e) → servedNow s (maskOf s (handleUnit sub.handle)) = false → 1 ≤ (configPairs sub).length → (configPairs sub).length ≤ 64 →
      firstFault (startOf s .unitConfigWrite sub) (handleUnit sub.handle) ts (configPairs sub) = none →
    Serves (.unitConfigWrite sub) s fun t =>
      Acts s t .unitConfigWrite sub stOk
        ∧ ∀ e ∈ ts, ∀ (id : Nat) (v : Word32), ((configPairs sub).filter fun p => p.1 == id).getLast? = some (id, v) → Tbl.find (softTable t e) id = some v)
  ∧ (∀ (s : State) (sub : Submission), HostReady s .unitConfigWrite sub → flag sub 2 = false → isGroup s (handleUnit sub.handle) = true →
      handleUnit sub.handle ≠ 255 → liveTargets s (handleUnit sub.handle) = [] → 1 ≤ (configPairs sub).length → (configPairs sub).length ≤ 64 →
      firstFault (startOf s .unitConfigWrite sub) (handleUnit sub.handle) [] (configPairs sub) = none →
    Serves (.unitConfigWrite sub) s fun t => Refused s t .unitConfigWrite sub stState)
  ∧ (∀ (s : State) (sub : Submission) (k : Nat) (v : Word32), HostReady s .unitConfigWrite sub → flag sub 2 = false → handleUnit sub.handle = 255 → k < 6 →
      configPairs sub = [(0x0600 + k, v)] → servedNow s (maskOf s 255) = false →
      firstFault (startOf s .unitConfigWrite sub) 255 (liveTargets s 255) [(0x0600 + k, v)] = none →
    Serves (.unitConfigWrite sub) s fun t =>
      Acts s t .unitConfigWrite sub stOk ∧ tapOf t k = v.toNat ∧ (∀ j, j ≠ k → tapOf t j = tapOf s j))
  ∧ (∀ (s : State) (sub : Submission) (st i : Nat), HostReady s .unitConfigWrite sub → flag sub 2 = false → 1 ≤ (configPairs sub).length
      → (configPairs sub).length ≤ 64 →
      firstFault (startOf s .unitConfigWrite sub) (handleUnit sub.handle)
        (if isGroup s (handleUnit sub.handle) then liveTargets s (handleUnit sub.handle) else targets s (handleUnit sub.handle)) (configPairs sub) = some (st, i) →
    Serves (.unitConfigWrite sub) s fun t =>
      Answers s t sub st (w32 (((configPairs sub).getD i (0, 0)).1 * 65536 + i)) ∧ t.press = s.press
        ∧ (isEnvelopeId ((configPairs sub).getD i (0, 0)).1 = false → LinkOnly s t))
  ∧ (∀ (s : State) (sub : Submission), HostReady s .unitConfigWrite sub → flag sub 2 = false → ((configPairs sub).length < 1 ∨ 64 < (configPairs sub).length) →
    Serves (.unitConfigWrite sub) s fun t => Refused s t .unitConfigWrite sub stRange)
  ∧ (∀ (s : State) (sub : Submission) (k : Nat) (w : WmRec) (clear : Bool), HostReady s .unitConfigWrite sub → flag sub 2 = true
      → configMonitors sub = [(k, w, clear)] →
      wmOk k w = true →
    Serves (.unitConfigWrite sub) s fun t =>
      Answers s t sub stOk (stateWord t (handleUnit sub.handle)) ∧ wmOf t k = w ∧ (∀ j, j ≠ k → wmOf t j = wmOf s j) ∧ t.press = s.press)
  ∧ (∀ (s : State) (sub : Submission), HostReady s .unitConfigWrite sub → flag sub 2 = true → 1 ≤ (configMonitors sub).length
      → (configMonitors sub).length ≤ 32 →
    Serves (.unitConfigWrite sub) s fun t =>
      match ((List.range (configMonitors sub).length).zip (configMonitors sub)).find? fun x => !wmOk x.2.1 x.2.2.1 with
      | some x => Answers s t sub stRange (w32 x.1) ∧ LinkOnly s t
      | none =>
        Answers s t sub stOk (stateWord t (handleUnit sub.handle)) ∧ t.press = s.press
          ∧ ∀ (k : Nat) (w : WmRec) (clear : Bool), ((configMonitors sub).filter fun x => x.1 == k).getLast? = some (k, w, clear) → wmOf t k = w)
  ∧ (∀ (s : State) (sub : Submission), HostReady s .unitConfigRead sub →
    Serves (.unitConfigRead sub) s fun t =>
      let bs := configBlock s (handleUnit sub.handle)
      if sub.bufLen < bs.length then Answers s t sub stRange (w32 bs.length) ∧ LinkOnly s t
      else Answers s t sub stOk (w32 bs.length) ∧ t.link.hostMem = Mem.write s.link.hostMem sub.bufAddr bs ∧ LinkOnly s t)

/-- TELEM_SNAPSHOT, LOG_READ, CAPTURE_READ and DIAG_RUN (R257, R258, R264, R297, R298, R358, R362, R364, R372): the record or block is written to the buffer,
with the bytes or records in RESULT, and RANGE with the bytes needed where it is too small. The conversions of an urgent snapshot are awaited. LOG_READ and
CAPTURE_READ copy at once where every page of the buffer is translated, and wait where its first is not; a capture with a damaged tile ends with TILE_CRC and
its first lost row. -/
def Obligations.RecordsAreCopiedOut : Prop :=
  (∀ (s : State) (sub : Submission), HostReady s .telemSnapshot sub → flag sub 2 = false → sub.bufLen < (snapshotBytes s sub).length →
    Serves (.telemSnapshot sub) s fun t => Answers s t sub stRange (w32 (snapshotBytes s sub).length) ∧ LinkOnly s t)
  ∧ (∀ (s : State) (sub : Submission),
      64 * (snapshotUnits s (handleUnit sub.handle) (flag sub 3)).length + (if handleUnit sub.handle = 255 then 128 else 0) = (snapshotBytes s sub).length)
  ∧ (∀ (s : State) (sub : Submission), HostReady s .telemSnapshot sub → flag sub 2 = true →
      ((urgentNodes sub).length = 0 ∨ 8 < (urgentNodes sub).length ∨ ∃ n ∈ urgentNodes sub, 240 ≤ n ∧ n ≠ 242) →
    Serves (.telemSnapshot sub) s fun t => Refused s t .telemSnapshot sub stRange)
  ∧ (∀ (s : State) (sub : Submission), HostReady s .telemSnapshot sub → flag sub 2 = true → 1 ≤ (urgentNodes sub).length → (urgentNodes sub).length ≤ 8 →
      (∀ n ∈ urgentNodes sub, n < 240 ∨ n = 242) →
    Serves (.telemSnapshot sub) s fun t =>
      if sub.bufLen < (snapshotBytes s sub).length + 4 * (urgentNodes sub).length then
        Answers s t sub stRange (w32 ((snapshotBytes s sub).length + 4 * (urgentNodes sub).length))
      else Waits s t .telemSnapshot sub (.urgent [] (snapshotBytes s sub)) ∧ ∀ n ∈ urgentNodes sub,
        let b := mbank t (nodeBank n)
        n ∈ b.urgent ∨ n ∈ b.urgentPress ∨ 16 ≤ b.urgentPress.length + b.urgent.length)
  ∧ (∀ (s : State) (sub : Submission), HostReady s .logRead sub → (arg sub 32 4 < 1 ∨ 8192 < arg sub 32 4) →
    Serves (.logRead sub) s fun t => Answers s t sub stRange 0 ∧ LinkOnly s t)
  ∧ (∀ (s : State) (sub : Submission), HostReady s .logRead sub → 1 ≤ arg sub 32 4 → arg sub 32 4 ≤ 8192 → sub.bufLen < (logBytes s sub).length →
    Serves (.logRead sub) s fun t => Answers s t sub stRange (w32 (logBytes s sub).length) ∧ LinkOnly s t)
  ∧ (∀ (s : State) (sub : Submission), HostReady s .logRead sub → 1 ≤ arg sub 32 4 → arg sub 32 4 ≤ 8192 → (logBytes s sub).length ≤ sub.bufLen →
      tilesAvailable s 69 (tilesFor (logBytes s sub).length) = false →
    Serves (.logRead sub) s fun t => Waits s t .logRead sub .waiting ∧ LinkOnly s t)
  ∧ (∀ (s : State) (sub : Submission), HostReady s .logRead sub → s.link.up = true → 1 ≤ arg sub 32 4 → arg sub 32 4 ≤ 8192 →
      (logBytes s sub).length ≤ sub.bufLen → tilesAvailable s 69 (tilesFor (logBytes s sub).length) = true → translated s sub.bufAddr = false →
    Serves (.logRead sub) s fun t =>
      Waits s t .logRead sub (.transfer 0) ∧ LinkOnly s t
        ∧ ∃ p ∈ t.link.xfers, p.2.flight = some s.link.nextFlight ∧ p.2.addr = sub.bufAddr ∧ p.2.done = 0 ∧ p.2.data = logBytes s sub)
  ∧ (∀ (s : State) (sub : Submission), HostReady s .captureRead sub →
      (3 < arg sub 28 1 → Serves (.captureRead sub) s fun t => Refused s t .captureRead sub stRange)
        ∧ (arg sub 28 1 ≤ 3 → (capOf s (arg sub 28 1)).state ≠ .held → Serves (.captureRead sub) s fun t => Refused s t .captureRead sub stState))
  ∧ (∀ (s : State) (sub : Submission), HostReady s .captureRead sub → arg sub 28 1 ≤ 3 → (capOf s (arg sub 28 1)).state = .held →
      sub.bufLen < (captureBytes (arg sub 28 1) (capOf s (arg sub 28 1))).length →
    Serves (.captureRead sub) s fun t =>
      Answers s t sub stRange (w32 (captureBytes (arg sub 28 1) (capOf s (arg sub 28 1))).length) ∧ LinkOnly s t)
  ∧ (∀ (s : State) (sub : Submission), HostReady s .captureRead sub → s.link.up = true → arg sub 28 1 ≤ 3 → (capOf s (arg sub 28 1)).state = .held →
      (captureBytes (arg sub 28 1) (capOf s (arg sub 28 1))).length ≤ sub.bufLen → (∀ r ∈ refsOf s (64 + arg sub 28 1), unreadable s r = false) →
      translated s sub.bufAddr = false →
    Serves (.captureRead sub) s fun t =>
      Waits s t .captureRead sub (.transfer 0) ∧ t.press = s.press ∧ capOf t (arg sub 28 1) = capOf s (arg sub 28 1)
        ∧ (∀ r ∈ refsOf s (64 + arg sub 28 1), (tagOf t r.1).state ≠ .closed)
        ∧ ∃ p ∈ t.link.xfers, p.2.flight = some s.link.nextFlight ∧ p.2.addr = sub.bufAddr ∧ p.2.tiles = refsOf s (64 + arg sub 28 1))
  ∧ (∀ (s : State) (sub : Submission) (i : Nat) (l : List Nat), HostReady s .captureRead sub → s.link.up = true → s.link.ats = false → arg sub 28 1 ≤ 3 →
      (capOf s (arg sub 28 1)).state = .held → (captureBytes (arg sub 28 1) (capOf s (arg sub 28 1))).length ≤ sub.bufLen →
      1 ≤ (capOf s (arg sub 28 1)).nodes.length → lostRowsOf s (arg sub 28 1) (capOf s (arg sub 28 1)) = i :: l →
    Serves (.captureRead sub) s fun t => Answers s t sub stTileCrc (w32 i) ∧ (capOf t (arg sub 28 1)).state = .held)
  ∧ (∀ (s : State) (sub : Submission), HostReady s .diagRun sub →
      (2 < arg sub 28 1 → Serves (.diagRun sub) s fun t => Refused s t .diagRun sub stRange)
        ∧ (arg sub 28 1 ≤ 2 → sub.bufLen < testSize (arg sub 28 1) →
            Serves (.diagRun sub) s fun t => Answers s t sub stRange (w32 (testSize (arg sub 28 1))) ∧ LinkOnly s t))

/-- STREAM_START (R359): a sequence or ring number above 7 is RANGE, an undefined sequence or a ring not enabled STATE, a sequence that streams or a ring that
holds a stream BUSY; else the sequence's stream stands in the ring, its burst state cleared, and the command ends with OK. STREAM_STOP (R360) releases the
ring with the cause and the pages in RESULT, passing over the entries that were published and not filled (R303, the model's choice, log entry 119), or is
STATE where there is no stream. SEQ_DEFINE (R231, R251, R363) stores a definition that is in range and fits the bank's load, of a sequence that does not
stream. SEQ_TRIGGER (R252, R363) answers OK with the outcome, a dropped one counted. CAPTURE_ARM (R262, R361) arms a slot, or with FIRE triggers an armed one.
-/
def Obligations.SequencesStreamsAndCaptures : Prop :=
  (∀ (s : State) (sub : Submission) (q : Sequence), HostReady s .streamStart sub → arg sub 28 1 ≤ 7 → arg sub 29 1 ≤ 7
      → Tbl.find s.meas.seqs (arg sub 28 1) = some q →
    Serves (.streamStart sub) s fun t =>
      if ringServed s (stIndex (arg sub 29 1)) = false then Refused s t .streamStart sub stState
      else if (streamOf s (arg sub 28 1)).isSome = true ∨ (streamAt s (arg sub 29 1)).isSome = true then Refused s t .streamStart sub stBusy
      else
        Answers s t sub stOk 0 ∧ streamAt t (arg sub 29 1) = some { seqId := arg sub 28 1 } ∧ t.press = s.press
          ∧ Tbl.find t.meas.seqs (arg sub 28 1) = some { q with burstNo := 0, burst := none, armed := none, latch := none, acc := [] })
  ∧ (∀ (s : State) (sub : Submission) (q : Sequence), HostReady s .streamStart sub → arg sub 28 1 ≤ 7 → arg sub 29 1 ≤ 7 →
      Tbl.find s.meas.seqs (arg sub 28 1) = some q → ringServed s (stIndex (arg sub 29 1)) = true → streamOf s (arg sub 28 1) = none →
      streamAt s (arg sub 29 1) = none →
    Serves (.streamStart sub) s fun t => Answers s t sub stOk 0 ∧ streamAt t (arg sub 29 1) = some { seqId := arg sub 28 1 })
  ∧ (∀ (s : State) (sub : Submission) (x : Stream) (c : Nat), HostReady s .streamStop sub → arg sub 28 1 ≤ 7 → streamAt s (arg sub 28 1) = some x
      → x.stopped = some c →
    Serves (.streamStop sub) s fun t =>
      streamAt t (arg sub 28 1) = none ∧ Answers s t sub stOk (w32 (c + satN 16777215 x.pages * 256)) ∧ (ringOf t (stIndex (arg sub 28 1))).pages = [])
  ∧ (∀ (s : State) (sub : Submission) (x : Stream), HostReady s .streamStop sub → arg sub 28 1 ≤ 7 → streamAt s (arg sub 28 1) = some x → x.stopped = none →
    Serves (.streamStop sub) s fun t =>
      streamAt t (arg sub 28 1) = none ∧ (ringOf t (stIndex (arg sub 28 1))).pages = [] ∧ ∃ pages, Answers s t sub stOk (w32 (satN 16777215 pages * 256)))
  ∧ (∀ (s : State) (sub : Submission) (id : Nat) (q : Sequence), HostReady s .seqDefine sub → id = byteAt sub.data 0 → q = parseSeq sub.data →
      (16 + q.nodes.length + 3) / 4 * 4 ≤ sub.bufLen → seqInRange id q = true → bankLoad s q.bank id + seqLoad q.spacing ≤ loadLimit s q.bank →
      streamOf s id = none →
    Serves (.seqDefine sub) s fun t => Answers s t sub stOk 0 ∧ Tbl.find t.meas.seqs id = some (redefined (Tbl.find s.meas.seqs id) q))
  ∧ (∀ (s : State) (sub : Submission), HostReady s .seqTrigger sub → arg sub 28 1 ≤ 7 →
    Serves (.seqTrigger sub) s fun t => Answers s t sub stOk (w32 (triggerOutcome s (arg sub 28 1) s.time.gtc)))
  ∧ (∀ (s : State) (sub : Submission), HostReady s .captureArm sub → flag sub 3 = false → captureInRange s sub = true →
      ((capOf s (arg sub 28 1)).state = .empty ∨ (capOf s (arg sub 28 1)).state = .armed) →
    Serves (.captureArm sub) s fun t => Answers s t sub stOk (defaultResult s (flightFor s .captureArm sub)) ∧ (capOf t (arg sub 28 1)).state = .armed
      ∧ (capOf t (arg sub 28 1)).nodes = captureNodes sub)
  ∧ (∀ (s : State) (sub : Submission), HostReady s .streamStart sub → arg sub 28 1 ≤ 7 → arg sub 29 1 ≤ 7 → Tbl.find s.meas.seqs (arg sub 28 1) = none →
    Serves (.streamStart sub) s fun t => Refused s t .streamStart sub stState)
  ∧ (∀ (s : State) (sub : Submission), HostReady s .streamStop sub → arg sub 28 1 ≤ 7 →
    Serves (.streamStop sub) s fun t =>
      (streamAt s (arg sub 28 1) = none → Refused s t .streamStop sub stState)
        ∧ (∀ x, streamAt s (arg sub 28 1) = some x → streamAt t (arg sub 28 1) = none ∧ t.press = s.press ∧ (ringOf t (stIndex (arg sub 28 1))).pages = []
            ∧ ∃ pages, Answers s t sub stOk (w32 (x.stopped.getD 0 + satN 16777215 pages * 256)) ∧ (x.stopped.isSome = true → pages = x.pages)))
  ∧ (∀ (s : State) (sub : Submission), HostReady s .seqDefine sub →
    Serves (.seqDefine sub) s fun t =>
      let id := byteAt sub.data 0
      let q := parseSeq sub.data
      if sub.bufLen < (16 + q.nodes.length + 3) / 4 * 4 ∨ seqInRange id q = false ∨ loadLimit s q.bank < bankLoad s q.bank id + seqLoad q.spacing then
        Refused s t .seqDefine sub stRange
      else if (streamOf s id).isSome = true then Refused s t .seqDefine sub stBusy
      else Answers s t sub stOk 0 ∧ Tbl.find t.meas.seqs id = some (redefined (Tbl.find s.meas.seqs id) q) ∧ t.press = s.press)
  ∧ (∀ (s : State) (sub : Submission), HostReady s .seqTrigger sub →
    Serves (.seqTrigger sub) s fun t =>
      if 7 < arg sub 28 1 then Refused s t .seqTrigger sub stRange
      else
        Answers s t sub stOk (w32 (triggerOutcome s (arg sub 28 1) s.time.gtc)) ∧ t.press = s.press
          ∧ (triggerOutcome s (arg sub 28 1) s.time.gtc = 2 →
              Tbl.get 0 t.meas.overruns (arg sub 28 1) = satN 4294967295 (Tbl.get 0 s.meas.overruns (arg sub 28 1) + 1)))
  ∧ (∀ (s : State) (sub : Submission), HostReady s .captureArm sub → flag sub 3 = false →
    Serves (.captureArm sub) s fun t =>
      let k := arg sub 28 1
      if captureInRange s sub = false then Answers s t sub stRange (defaultResult s (flightFor s .captureArm sub)) ∧ t.press = s.press
      else if (capOf s k).state = .filling ∨ ((capOf s k).state = .held ∧ flag sub 2 = false) then
        Answers s t sub stBusy (defaultResult s (flightFor s .captureArm sub)) ∧ t.press = s.press
      else
        Answers s t sub stOk (defaultResult s (flightFor s .captureArm sub)) ∧ t.press = s.press
          ∧ capOf t k = { state := .armed, nodes := captureNodes sub, trigKind := arg sub 30 1, trigUnit := handleUnit sub.handle, trigArg := arg sub 40 4,
                          pre := arg sub 32 4, post := arg sub 36 4,
                          tiles := tilesFor (captureSize s sub) } ∧ ∀ j, j ≠ k → capOf t j = capOf s j)
  ∧ (∀ (s : State) (sub : Submission), HostReady s .captureArm sub → flag sub 3 = true → arg sub 28 1 ≤ 3 →
    Serves (.captureArm sub) s fun t =>
      if (capOf s (arg sub 28 1)).state = .armed then
        Answers s t sub stOk (defaultResult s (flightFor s .captureArm sub)) ∧ (capOf t (arg sub 28 1)).state = .filling
          ∧ (capOf t (arg sub 28 1)).trigGtc = s.time.gtc ∧ t.press = s.press
      else Refused s t .captureArm sub stState)
  ∧ (∀ (s : State) (sub : Submission), HostReady s .streamStart sub → (7 < arg sub 28 1 ∨ 7 < arg sub 29 1) →
    Serves (.streamStart sub) s fun t => Refused s t .streamStart sub stRange)

/-- NOP answers OK with the low half of the GTC. FENCE (R347) ends once nothing it waits for is left, else it waits. ABORT (R342) of no command in flight is
RANGE; of one that has not started it ends that with ABORTED and itself with OK after it. LOG_CLEAR (R365, R406) ends with the SEQ of its CLEAR record,
committed, waits through a brownout warning, and is BUSY while another clear is being committed. POWER_STATE (R369, R441, R442): RANGE, BUSY and STATE as R369
says, OK at once for the present state and for PARK, which is then pending, else it waits for the change. TIME_SYNC (R370) starts a dialogue and waits for its
end. CAL_RUN (R371) calibrates the slices of its scope; scope 3 needs the unit in OFF, LOCK or RETIRED. -/
def Obligations.DeviceCommands : Prop :=
  (∀ (s : State) (sub : Submission), HostReady s .nop sub → Serves (.nop sub) s fun t => Answers s t sub stOk (w32 s.time.gtc) ∧ LinkOnly s t)
  ∧ (∀ (s : State) (sub : Submission), HostReady s .fence sub →
    Serves (.fence sub) s fun t =>
      if fenceReady (accepted s .fence sub) (flightFor s .fence sub) = true then Answers s t sub stOk 0 ∧ LinkOnly s t
      else Waits s t .fence sub .fenced ∧ LinkOnly s t)
  ∧ (∀ (s : State) (sub : Submission), HostReady s .abort sub → flightByRef s (abortTarget sub) = none →
      ¬ (abortTarget sub = { sq := sub.sq, tag := sub.tag, gen := sub.gen }) →
    Serves (.abort sub) s fun t => Refused s t .abort sub stRange)
  ∧ (∀ (s : State) (sub : Submission) (g : Flight), HostReady s .abort sub → flightByRef s (abortTarget sub) = some g → g.op ≠ .abort →
    Serves (.abort sub) s fun t =>
      Tbl.get [] t.link.cqHeld (cqOf s g.sub.sq) = Tbl.get [] s.link.cqHeld (cqOf s g.sub.sq) ++
          completionOf g.sub stAborted g.sub.handle 0 :: (if cqOf s g.sub.sq = cqOf s sub.sq then [completionOf sub stOk sub.handle 0] else [])
        ∧ (∀ f ∈ t.link.flights, f.id ≠ g.id ∧ f.id ≠ s.link.nextFlight) ∧ LinkOnly s t)
  ∧ (∀ (s : State) (sub : Submission), HostReady s .logClear sub → s.cave.clearing = false → s.power.brownout = false →
    Serves (.logClear sub) s fun t =>
      Answers s t sub stOk (w32 (s.cave.nextSeq + (if s.cave.open_.isSome = true then 1 else 0))) ∧ t.cave.open_ = none ∧ t.press = s.press ∧ t.nvm = s.nvm)
  ∧ (∀ (s : State) (sub : Submission), HostReady s .logClear sub → s.cave.clearing = false → s.power.brownout = false →
      (∀ rc, s.fw.recipe = some rc → ∀ x ∈ rc.rules, ¬ (x.code = evClear ∧ x.source = 116)) →
    Serves (.logClear sub) s fun t =>
      ∃ r, (heldRecs t.cave).getLast? = some r ∧ r.code = evClear ∧ r.p0 = 1 ∧ visibleSeq t.cave = r.seq ∧ t.cave.open_ = none
        ∧ Answers s t sub stOk (w32 r.seq) ∧ t.press = s.press ∧ t.nvm = s.nvm)
  ∧ (∀ (s : State) (sub : Submission), HostReady s .logClear sub → s.cave.clearing = false → s.power.brownout = true →
    Serves (.logClear sub) s fun t => Waits s t .logClear sub .nvmWait ∧ t.cave.clearing = true ∧ t.press = s.press)
  ∧ (∀ (s : State) (sub : Submission), HostReady s .powerState sub →
    Serves (.powerState sub) s fun t =>
      let g := arg sub 28 1
      if 2 < g then Refused s t .powerState sub stRange
      else if targetMode g = s.power.mode then Answers s t sub stOk 0 ∧ t.power = { s.power with parkPending := false }
      else if loadRunning s s.link.nextFlight = true ∨ s.power.next.isSome = true then Refused s t .powerState sub stBusy
      else if g = 2 then
        (if parkRefused s = true then Refused s t .powerState sub stState else Answers s t sub stOk 0 ∧ t.power = { s.power with parkPending := true })
      else Waits s t .powerState sub .power ∧ t.power = { s.power with parkPending := false, next := some (targetMode g) })
  ∧ (∀ (s : State) (sub : Submission), HostReady s .powerState sub → arg sub 28 1 ≤ 1 → targetMode (arg sub 28 1) ≠ s.power.mode →
      loadRunning s s.link.nextFlight = false → s.power.next = none →
    Serves (.powerState sub) s fun t => Waits s t .powerState sub .power ∧ t.power.next = some (targetMode (arg sub 28 1)))
  ∧ (∀ (s : State) (sub : Submission), HostReady s .powerState sub → arg sub 28 1 = 2 → loadRunning s s.link.nextFlight = false → s.power.next = none →
      parkRefused s = false → Serves (.powerState sub) s fun t => Answers s t sub stOk 0 ∧ t.power = { s.power with parkPending := true })
  ∧ (∀ (s : State) (sub : Submission), HostReady s .timeSync sub → s.link.ptm = true → s.time.dialogue = none →
    Serves (.timeSync sub) s fun t => Waits s t .timeSync sub .dialogue ∧ t.time.dialogue = some s.time.gtc ∧ t.time.dialogueAt = s.time.gtc)
  ∧ (∀ (s : State) (sub : Submission), HostReady s .calRun sub → arg sub 28 1 ≤ 2 → sub.handle = 0 → calSlices s (arg sub 28 1) ≠ [] →
    Serves (.calRun sub) s fun t => Waits s t .calRun sub .calibration ∧ t.meas.calRun = calSlices s (arg sub 28 1))
  ∧ (∀ (s : State) (sub : Submission), HostReady s .timeSync sub →
    Serves (.timeSync sub) s fun t =>
      if s.link.ptm = false then Refused s t .timeSync sub stUnsupported
      else if s.time.dialogue.isSome = true then Refused s t .timeSync sub stBusy
      else Waits s t .timeSync sub .dialogue ∧ t.time = { s.time with dialogue := some s.time.gtc, dialogueAt := s.time.gtc })
  ∧ (∀ (s : State) (sub : Submission), HostReady s .calRun sub → arg sub 28 1 ≤ 2 → sub.handle = 0 →
    Serves (.calRun sub) s fun t =>
      if calSlices s (arg sub 28 1) = [] then Answers s t sub stOk 0
      else Waits s t .calRun sub .calibration ∧ t.meas.calRun = calSlices s (arg sub 28 1) ∧ t.press = s.press)
  ∧ (∀ (s : State) (sub : Submission), HostReady s .calRun sub → arg sub 28 1 = 3 → sub.handle ≠ 0 →
    Serves (.calRun sub) s fun t =>
      match (unitAgg s (handleUnit sub.handle)).1 with
      | .off | .lock | .retired => Answers s t sub stOk 0 ∧ ∀ u ∈ maskOf s (handleUnit sub.handle), u ∈ t.meas.offsets
      | _ => Answers s t sub stState (stateWord s (handleUnit sub.handle)) ∧ t.meas.offsets = s.meas.offsets)
  ∧ (∀ (s : State) (sub : Submission), HostReady s .logClear sub → s.cave.clearing = true → s.power.brownout = false →
    Serves (.logClear sub) s fun t => Refused s t .logClear sub stBusy)

/-- PROFILE_LOAD, RECIPE_LOAD, FW_STAGE, FW_ACTIVATE and FW_ROLLBACK (R158, R159, R165, R166, R366, R367, R368, R412, R413, R414, R423, R427, R428): a bundle
or an image that fails a check is refused with the check and changes nothing in force; one that passes is stored, selected and in force, unless its slot does
not read back, of which nothing is known (log entry 84); a staged chunk stands in the slot that does not run; a handover begins with the old image's last
fetch; a Rind image is selected for the next device reset. -/
def Obligations.BundlesAndImagesAreLoaded : Prop :=
  (∀ (s : State) (sub : Submission), HostReady s .profileLoad sub → loadRunning s s.link.nextFlight = false →
    Serves (.profileLoad sub) s fun t =>
      match profileCheck s.nvm sub.data sub.bufLen with
      | some (code, u, st) => Answers s t sub st (w32 (code + 256 * u)) ∧ t.fw = s.fw ∧ t.nvm = s.nvm ∧ t.press = s.press ∧ t.cmp = s.cmp
      | none =>
        let p := parseProfile sub.data
        let k := (draw (startOf s .profileLoad sub)).1
        match codeFault p (startOf s .profileLoad sub) with
        | some u => Answers s t sub stRange (w32 (4 + 256 * u)) ∧ t.fw = s.fw ∧ t.nvm = s.nvm ∧ t.press = s.press ∧ t.cmp = s.cmp
        | none =>
        if Config.slotWriteFails k = true then
          Answers s t sub stRange (w32 (16 + 256 * 255)) ∧ t.fw = s.fw ∧ t.nvm.profileSel = s.nvm.profileSel ∧ t.press = s.press ∧ t.cmp = s.cmp
        else
        Answers s t sub stOk (w32 p.version) ∧ t.fw.profile = some p ∧ t.nvm.profileSel = (if s.nvm.profileSel = 0 then 1 else 0)
            ∧ t.fw.profileSlot = t.nvm.profileSel
          ∧ t.nvm.profileFloor = Nat.max s.nvm.profileFloor p.minVersion
          ∧ (∀ u, u < 71 → (∀ x ∈ p.parallel, u ∉ x.2) → entryChanged s.fw.profile p u = true → (leafOf t u).retries = 0))
  ∧ (∀ (s : State) (sub : Submission), HostReady s .recipeLoad sub → loadRunning s s.link.nextFlight = false →
    Serves (.recipeLoad sub) s fun t =>
      let r := parseRecipe sub.data
      match recipeStep1 s.nvm sub.data sub.bufLen with
      | some st => Answers s t sub st 1 ∧ LinkOnly s t
      | none =>
        if recipeStep2 s r = false then Answers s t sub stRange 2 ∧ LinkOnly s t
        else if Config.slotWriteFails (draw (startOf s .recipeLoad sub)).1 = true then
          Answers s t sub stRange 3 ∧ LinkOnly s t
        else
          Answers s t sub stOk (w32 r.version) ∧ t.fw.recipe = some r ∧ t.nvm.recipeSel = (if s.nvm.recipeSel = 0 then 1 else 0) ∧ t.vat.quotas = recipeQuotas r
            ∧ t.cave.repeatWin = r.repeatWin.getD 1000)
  ∧ (∀ (s : State) (sub : Submission), HostReady s .fwStage sub → s.link.up = true → stageRefusal s (flightFor s .fwStage sub) = none →
      tilesAvailable s 69 (tilesFor sub.bufLen) = true → (∀ a, sub.bufAddr ≤ a → a < sub.bufAddr + sub.bufLen → translated s a = true) →
    Serves (.fwStage sub) s fun t =>
      let g := arg sub 28 1
      let k := inactiveSlot s g
      let sl := writeChunk (imageSlot s.nvm g k) (arg sub 32 4) (slice sub.data 0 sub.bufLen)
      t.fw = s.fw ∧ t.press = s.press
        ∧ if flag sub 2 = true then
            (match imageCheck s g sl with
             | some c => Answers s t sub stAuth (w32 c) ∧ imageSlot t.nvm g k = { sl with verified := none }
             | none => Answers s t sub stOk (w32 (verifiedImage sl).version) ∧ imageSlot t.nvm g k = { sl with verified := some (verifiedImage sl) })
          else Answers s t sub stOk (w32 sub.bufLen) ∧ imageSlot t.nvm g k = sl)
  ∧ (∀ (s : State) (sub : Submission), HostReady s .fwStage sub → s.link.up = true → arg sub 28 1 ≤ 1 → arg sub 32 4 % 4096 = 0 →
      sub.bufLen ≤ 262144 → arg sub 32 4 + sub.bufLen ≤ slotSize (arg sub 28 1) → flag sub 2 = false → (∀ g ∈ s.link.flights, g.op ≠ .fwStage) →
      tilesAvailable s 69 (tilesFor sub.bufLen) = true → (∀ a, sub.bufAddr ≤ a → a < sub.bufAddr + sub.bufLen → translated s a = true) →
    Serves (.fwStage sub) s fun t =>
      Answers s t sub stOk (w32 sub.bufLen)
        ∧ imageSlot t.nvm (arg sub 28 1) (inactiveSlot s (arg sub 28 1))
            = writeChunk (imageSlot s.nvm (arg sub 28 1) (inactiveSlot s (arg sub 28 1))) (arg sub 32 4) (slice sub.data 0 sub.bufLen)
        ∧ t.fw = s.fw ∧ t.press = s.press)
  ∧ (∀ (s : State) (sub : Submission), HostReady s .fwStage sub → s.link.up = true → stageRefusal s (flightFor s .fwStage sub) = none →
      tilesAvailable s 69 (tilesFor sub.bufLen) = true → translated s sub.bufAddr = false →
    Serves (.fwStage sub) s fun t =>
      Waits s t .fwStage sub (.transfer 0) ∧ LinkOnly s t ∧ ∃ p ∈ t.link.xfers, p.2.flight = some s.link.nextFlight ∧ p.2.addr = sub.bufAddr ∧ p.2.done = 0)
  ∧ (∀ (s : State) (sub : Submission), HostReady s .fwStage sub →
      (1 < arg sub 28 1 ∨ arg sub 32 4 % 4096 ≠ 0 ∨ 262144 < sub.bufLen ∨ slotSize (arg sub 28 1) < arg sub 32 4 + sub.bufLen) →
    Serves (.fwStage sub) s fun t => Refused s t .fwStage sub stRange)
  ∧ (∀ (s : State) (op : Op) (sub : Submission) (i : ImageInfo), (op = .fwActivate ∨ op = .fwRollback) → HostReady s op sub → arg sub 28 1 = 0
      → loadRunning s s.link.nextFlight = false →
      (pasteSlotOf s.nvm (inactiveSlot s 0)).verified = some i → needTiles i ≤ s.vat.pasteTiles →
      i.handoverMin ≤ (pasteSlotOf s.nvm s.fw.pasteSlot).verified.elim 0 (·.handoverVersion) → s.nvm.pasteFloor ≤ i.version →
      tilesAvailable s 5 512 = true →
    Serves (hostRow op sub) s fun t =>
      Waits s t op sub .handover ∧ t.fw.paste = .handover ∧ t.fw.handover = some (s.link.nextFlight, inactiveSlot s 0) ∧ t.fw.gapEnd < s.time.gtc + 8000000
        ∧ t.nvm = s.nvm ∧ t.press = s.press)
  ∧ (∀ (s : State) (op : Op) (sub : Submission), (op = .fwActivate ∨ op = .fwRollback) → HostReady s op sub → arg sub 28 1 = 0 →
      (pasteSlotOf s.nvm (inactiveSlot s 0)).verified = none →
    Serves (hostRow op sub) s fun t => Refused s t op sub stState)
  ∧ (∀ (s : State) (op : Op) (sub : Submission) (i : ImageInfo) (k : Nat), (op = .fwActivate ∨ op = .fwRollback) →
      k = (if op = .fwActivate then inactiveSlot s 1 else 1 - s.nvm.rindSel) → HostReady s op sub → arg sub 28 1 = 1 → loadRunning s s.link.nextFlight = false →
      (imageSlot s.nvm 1 k).verified = some i → s.nvm.rindFloor ≤ i.version →
    Serves (hostRow op sub) s fun t => Answers s t sub stOk (w32 i.version) ∧ t.nvm = { s.nvm with rindSel := k } ∧ t.fw = s.fw)
  ∧ (∀ (s : State) (sub : Submission) (i : ImageInfo), HostReady s .fwActivate sub → arg sub 28 1 = 1 → loadRunning s s.link.nextFlight = false →
      (imageSlot s.nvm 1 (inactiveSlot s 1)).verified = some i →
    Serves (.fwActivate sub) s fun t =>
      if i.version < s.nvm.rindFloor then Refused s t .fwActivate sub stAuth
      else Answers s t sub stOk (w32 i.version) ∧ t.nvm = { s.nvm with rindSel := inactiveSlot s 1 } ∧ t.fw = s.fw)
  ∧ (∀ (s : State) (sub : Submission) (i : ImageInfo), HostReady s .fwRollback sub → arg sub 28 1 = 1 → loadRunning s s.link.nextFlight = false →
      (imageSlot s.nvm 1 (1 - s.nvm.rindSel)).verified = some i →
    Serves (.fwRollback sub) s fun t =>
      if i.version < s.nvm.rindFloor then Refused s t .fwRollback sub stAuth
      else Answers s t sub stOk (w32 i.version) ∧ t.nvm = { s.nvm with rindSel := 1 - s.nvm.rindSel } ∧ t.fw = s.fw)

/-! ## The tick, scheduled actions, the hoop table -/

/-- PROTECTION_TICK (R103, R341, R375, R382, R398): the GTC moves on to the next multiple of a tick, OPSEC counts the seconds of operation that have passed,
with the device at work no event of the Press waits outside the tick's own, and with no command and no edit waiting no leaf counts as served in the tick that
begins. With nothing in flight, no recipe and no power state waiting the mode stays, and one that waits is entered where the GTC is a multiple of 3,200 (R383,
R441). Without its clocks the tick changes nothing (R18, R439). -/
def Obligations.TicksMoveTime : Prop :=
  (∀ (s : State) (inp : TickInputs), clocked s = true →
    ∃ t, exec (.protectionTick inp) s = .next t
      ∧ t.time.gtc = (s.time.gtc / tickGtc s * tickGtc s + tickGtc s) % 18446744073709551616
      ∧ (let n := s.time.subsec + (tickGtc s - s.time.gtc % tickGtc s)
         t.time.subsec = n % 400000000 ∧ t.power.opsec = satN 4294967295 (s.power.opsec + n / 400000000))
      ∧ (s.link.flights = [] → s.press.edits = [] → s.fw.recipe = none → t.press.served = []) ∧ (clocked t = true → t.press.evq = [])
          ∧ t.power.booting = false ∧ t.power.clockFail = false
      ∧ (s.link.flights = [] → s.fw.recipe = none → s.power.next = none → t.power.mode = s.power.mode)
      ∧ (∀ m, s.link.flights = [] → s.fw.recipe = none → s.power.next = some m → t.time.gtc % 3200 = 0 → t.power.mode = m ∧ t.power.next = none))
  ∧ (∀ (s : State) (inp : TickInputs), clocked s = false → exec (.protectionTick inp) s = .next s)

/-- SCHEDULED_ACTION (R38, R39, R340, R341, R390): the first action in the order of fetching whose TIME has come is taken in: more than LATE_TOL after its
TIME it ends with LATE, else with the status of its handle's check where that now fails, in both cases with no other effect on the units; else it acts, here a
turn-off of a unit that no command has served in this tick: it is OFF, or where it cools its retry is cancelled, its leaves count as served, and it stands as
applied with OK, to be answered as the tick leaves the unit. With none due nothing changes. -/
def Obligations.ScheduledActionsAreTaken : Prop :=
  let due (s : State) (f : Flight) : Prop :=
    s.link.flights.find? (fun g => g.phase == .scheduled && decide (g.sub.time ≤ s.time.gtc)) = some f ∧ f.origin = .host ∧ f.sub.time ≠ 0
  (∀ (s : State) (f : Flight), clocked s = true → due s f → f.sub.time + usGtc s.time.lateTol < s.time.gtc →
    Does .scheduledAction s fun t => Ends s t f stLate (defaultResult s f) ∧ t.press = s.press)
  ∧ (∀ (s : State) (f : Flight) (st : Nat), clocked s = true → due s f → s.time.gtc ≤ f.sub.time + usGtc s.time.lateTol → check3 s f.op f.sub = some st →
    Does .scheduledAction s fun t => Ends s t f st 0 ∧ t.press = s.press)
  ∧ (∀ (s : State) (f : Flight), clocked s = true → due s f → s.time.gtc ≤ f.sub.time + usGtc s.time.lateTol → f.op = .unitOff → check3 s f.op f.sub = none →
      (∀ r ∈ f.tiles, unreadable s r = false) →
      servedNow s (maskOf s (handleUnit f.sub.handle)) = false → isGroup s (handleUnit f.sub.handle) = false → Leads s (evalUnit s (handleUnit f.sub.handle)) →
    Does .scheduledAction s fun t =>
      let e := evalUnit s (handleUnit f.sub.handle)
      (∃ g ∈ t.link.flights, g.id = f.id ∧ g.sub = f.sub ∧ g.phase = .applied stOk) ∧ t.link.cqHeld = s.link.cqHeld
        ∧ (∀ v ∈ maskOf s (handleUnit f.sub.handle), v ∈ t.press.served)
        ∧ (vleaf t e).st = (if (vleaf s e).st.active = true then .off else (vleaf s e).st) ∧ ((vleaf s e).st = .cool → (vleaf t e).retryCancelled = true))
  ∧ (∀ (s : State), clocked s = true → (∀ f ∈ s.link.flights, f.phase = .scheduled → s.time.gtc < f.sub.time) →
    Does .scheduledAction s fun t => t = s)

/-- HOOP_TABLE_SWAP (R30, R43, R61, R62, R63, R188 to R192, R341, R350, R356, R357): the first edit that waits stays while its leaves have been served in the
tick or Rind cannot write its record. Then it is checked again: where it can no longer be made its command ends with that status and nothing of the units
changes, no record being written; else it is made at once: a hoop is formed with its members under it, its members are replaced and those left out become
top-level, it is dissolved, a unit or a member is retired or restored, its lock record written. The generation of every unit number concerned advances, and
the command ends with OK, that of a whole unit as the tick leaves it. -/
def Obligations.HoopTableSwaps : Prop :=
  let waits (s : State) (e : Edit) (f : Flight) (rest : List PendingEdit) : Prop :=
    clocked s = true ∧ f.origin = .host ∧ swapWaits s e = false
      ∧ ∃ hs, s.press.edits = { flight := f.id, edit := e, handles := hs } :: rest ∧ flightOf s f.id = some f
        ∧ swapRefusal { s with press := { s.press with edits := rest } } f { flight := f.id, edit := e, handles := hs } = none
  let acted (t : State) (f : Flight) : Prop := ∃ g ∈ t.link.flights, g.id = f.id ∧ g.sub = f.sub ∧ g.phase = .applied stOk
  let written (t : State) (u seq : Nat) (kinds : List LockKind) : Prop := ∃ r ∈ t.nvm.locks, r.unit = u ∧ r.kind ∈ kinds ∧ seq ≤ r.seq
  (∀ (s : State) (e : PendingEdit) (rest : List PendingEdit), clocked s = true → s.press.edits = e :: rest → swapWaits s e.edit = true →
    Does .hoopTableSwap s fun t => t = s)
  ∧ (∀ (s : State) (e : PendingEdit) (rest : List PendingEdit) (f : Flight) (r : Nat × Option Word32), clocked s = true → s.press.edits = e :: rest →
      swapWaits s e.edit = false → flightOf s e.flight = some f → f.origin = .host →
      swapRefusal { s with press := { s.press with edits := rest } } f e = some r →
    Does .hoopTableSwap s fun t => Ends s t f r.1 (r.2.getD (defaultResult s f)) ∧ t.press = { s.press with edits := rest } ∧ t.nvm = s.nvm)
  ∧ (∀ (s : State) (n k : Nat) (table : List SeqEntry) (f : Flight) (rest : List PendingEdit), waits s (.form n table) f rest → formNumber s n = .ok k →
      (∀ e ∈ table, e.member < 71) →
    Does .hoopTableSwap s fun t =>
      hoopOf t k = some { parallel := false, members := table.map (·.member), table := table } ∧ genOf t k = nextGen (genOf s k)
        ∧ (∀ v, v < 71 → leafOf t v = (if v ∈ table.map (·.member) then { leafOf s v with parent := k } else leafOf s v))
        ∧ (∀ j, j ≠ k → hoopOf t j = hoopOf s j ∧ genOf t j = genOf s j) ∧ EndsWith s t f stOk (handleOf t k) (handleOf t k))
  ∧ (∀ (s : State) (n : Nat) (table : List SeqEntry) (h : Hoop) (f : Flight) (rest : List PendingEdit), waits s (.edit n table) f rest → hoopOf s n = some h →
      h.table ≠ table → (∀ e ∈ table, e.member < 71) → (∀ u ∈ h.members, u < 71) →
    Does .hoopTableSwap s fun t =>
      hoopOf t n = some { h with members := table.map (·.member), table := table } ∧ genOf t n = nextGen (genOf s n)
        ∧ (∀ v, v < 71 → leafOf t v =
            (if v ∈ table.map (·.member) then { leafOf s v with parent := n } else if v ∈ h.members then { leafOf s v with parent := 255 } else leafOf s v))
        ∧ EndsWith s t f stOk (handleOf t n) (handleOf t n))
  ∧ (∀ (s : State) (n : Nat) (h : Hoop) (f : Flight) (rest : List PendingEdit), waits s (.dissolve n) f rest → hoopOf s n = some h → hoopOf s h.parent = none →
      (∀ u ∈ h.members, u < 71) →
    Does .hoopTableSwap s fun t =>
      hoopOf t n = none ∧ genOf t n = nextGen (genOf s n) ∧ (∀ v, v < 71
          → leafOf t v = (if v ∈ h.members then { leafOf s v with parent := 255 } else leafOf s v))
        ∧ (∀ j, j ≠ n → hoopOf t j = hoopOf s j ∧ genOf t j = genOf s j) ∧ Ends s t f stOk f.sub.handle)
  ∧ (∀ (s : State) (u : Nat) (f : Flight) (rest : List PendingEdit), waits s (.retire u) f rest → Solo s u →
    Does .hoopTableSwap s fun t =>
      (leafOf t u).st = .retired ∧ genOf t u = nextGen (genOf s u) ∧ (∀ v, v ≠ u → leafOf t v = leafOf s v ∧ genOf t v = genOf s v)
        ∧ written t u (lockSeq s.nvm) [if damageLocked s u = true then .retiredDamaged else .retired] ∧ acted t f)
  ∧ (∀ (s : State) (u : Nat) (f : Flight) (rest : List PendingEdit), waits s (.restore u) f rest → Solo s u →
    Does .hoopTableSwap s fun t =>
      (leafOf t u).st = .off ∧ (leafOf t u).retries = 0 ∧ (leafOf t u).diag.verdict = 0 ∧ (leafOf t u).diag.damaged = false ∧ genOf t u = nextGen (genOf s u)
        ∧ (∀ v, v ≠ u → leafOf t v = leafOf s v ∧ genOf t v = genOf s v) ∧ written t u (lockSeq s.nvm) [.cleared] ∧ acted t f)
  ∧ (∀ (s : State) (u : Nat) (f : Flight) (rest : List PendingEdit), waits s (.retire u) f rest → isGroup s u = false →
    Does .hoopTableSwap s fun t =>
      (∀ m ∈ groupOf s (evalUnit s u), (leafOf t m).st = .retired) ∧ (∀ v, v ∉ groupOf s (evalUnit s u) → (leafOf t v).st = (leafOf s v).st) ∧ acted t f)
  ∧ (∀ (s : State) (u : Nat) (f : Flight) (rest : List PendingEdit), waits s (.restore u) f rest → isGroup s u = false →
    Does .hoopTableSwap s fun t =>
      (∀ m ∈ groupOf s (evalUnit s u), (leafOf t m).st = .off ∧ (leafOf t m).retries = 0 ∧ (leafOf t m).diag.damaged = false)
        ∧ (∀ v, v ∉ groupOf s (evalUnit s u) → (leafOf t v).st = (leafOf s v).st) ∧ acted t f)
  ∧ (∀ (s : State) (n m : Nat) (h : Hoop) (f : Flight) (rest : List PendingEdit), waits s (.retireMember n m) f rest → hoopOf s n = some h → n ≠ m →
      (vleaf s h.slot).st ≠ .lock →
    Does .hoopTableSwap s fun t =>
      (leafOf t m).st = .retired ∧ genOf t n = nextGen (genOf s n) ∧ genOf t m = nextGen (genOf s m) ∧ (∀ v, v ≠ m → (leafOf t v).st = (leafOf s v).st)
        ∧ t.press.evq = s.press.evq ++ [pressEvent s n evMemberRetired (handleOf t n) (handleOf t m) 0] ∧ (leafOf t m).diag.gateOpen = false
        ∧ written t m (lockSeq s.nvm) [.retired, .retiredDamaged] ∧ EndsWith s t f stOk (handleOf t m) (handleOf t n))
  ∧ (∀ (s : State) (n m : Nat) (h : Hoop) (f : Flight) (rest : List PendingEdit), waits s (.restoreMember n m) f rest → hoopOf s n = some h → n ≠ m →
    Does .hoopTableSwap s fun t =>
      (leafOf t m).st = .off ∧ genOf t n = nextGen (genOf s n) ∧ genOf t m = nextGen (genOf s m) ∧ (∀ v, v ≠ m → (leafOf t v).st = (leafOf s v).st)
        ∧ (∀ x ∈ h.members, (leafOf t x).retries = 0) ∧ written t m (lockSeq s.nvm) [.cleared] ∧ EndsWith s t f stOk (handleOf t m) (handleOf t n))
  ∧ (∀ (s : State) (f : Flight) (st : Nat), f ∈ s.link.flights → (∀ g ∈ s.link.flights, g.id = f.id → g = f) → f.phase = .applied st → f.origin = .host →
      (f.op = .unitRetire ∨ f.op = .unitRestore) →
      completionOf f.sub st (handleOf s (handleUnit f.sub.handle)) (stateWord s (handleUnit f.sub.handle)) ∈ Tbl.get [] (settle s).link.cqHeld (cqOf s f.sub.sq)
        ∧ ∀ g ∈ (settle s).link.flights, g.id ≠ f.id)

/-! ## The machine as a whole -/

/-- STEP RUNS THE FRONT COMMAND: a step takes the command that has waited longest and is `exec` of it on the state with the rest of the queue. With no command
waiting the block idles (log entry 2). What follows every row (R375, R476): without clocks nothing does; else no event of the Press waits outside the tick in
progress, and the two-wire bus sees its levels as they are; and where no command is in flight and no transfer waits, the clock, the power state, the
firmware's state and the queue are as they were. -/
def Obligations.StepTakesFrontCommand : Prop :=
  ((∀ (s : State) (c : Instr) (rest : List Instr), s.pending = c :: rest → step s = exec c { s with pending := rest }))
  ∧ ((∀ s : State, s.pending = [] → step s = .next s))
  ∧ (∀ s : State, clocked s = false → afterRow s = s)
  ∧ (∀ s : State, clocked s = true → Settled (afterRow s))
  ∧ (∀ s : State, s.link.flights = [] → s.link.xfers = [] →
      (afterRow s).time = s.time ∧ (afterRow s).power = s.power ∧ (afterRow s).fw = s.fw ∧ (afterRow s).pending = s.pending)

/-- What a reset leaves (R32, R64, R457): the device held before BOOT, every leaf at its reset values and in OFF with its gate held off, no hoop, every
generation 1, no ring, no command in flight, no tag taken, the GTC at 0, the SETUP registers 0, every tag of the Vat free, the queue empty; and the invariant
holds. -/
def Obligations.ResetState : Prop :=
  State.reset.power.booting = true ∧ (∀ u, leafOf State.reset u = {} ∧ (leafOf State.reset u).st = .off ∧ (leafOf State.reset u).gate = .holdOff)
    ∧ State.reset.press.hoops = [] ∧ (∀ u, genOf State.reset u = 1) ∧ (∀ i, (ringOf State.reset i).up = false)
    ∧ State.reset.link.flights = [] ∧ State.reset.link.tagsBusy = [] ∧ State.reset.time.gtc = 0 ∧ State.reset.link.setup.enable = false
    ∧ State.reset.link.setup.locked = false ∧ State.reset.press.evq = [] ∧ State.reset.pending = [] ∧ Settled State.reset

/-- The invariant that every step keeps: while the device works, no event of the Press waits between two commands, and the two-wire bus sees its levels as they
are (R375, R476, R477). -/
def Obligations.StepKeepsSettled : Prop := ∀ s t : State, Settled s → step s = .next t → Settled t

/-- Every command whose operands are well formed completes, in every state; no command is ever refused, and the one fault is an access beyond BAR0. -/
def Obligations.WellFormedCommandsComplete : Prop :=
  (∀ (c : Instr) (s : State), c.wf = true → ∃ t, exec c s = .next t)
  ∧ ∀ (c : Instr) (s : State),
      (∀ f, exec c s = .fault f → ∃ off bytes, c = .bar0Write off bytes ∧ 65536 < off + bytes.length ∧ f = .outsideBar0 off)
        ∧ ∀ r, exec c s ≠ .refused r

/-- A submission descriptor is 64 bytes: OPCODE and FLAGS, TAG with its generation in bits [15:12], HANDLE, TIME, BUF_ADDR, BUF_LEN and ARGS stand at the bytes
R320 gives them, the least significant byte first. Written out so it is parsed to itself, with every field at every value it can hold. -/
def Obligations.DescriptorRoundTrip : Prop :=
  ∀ (opcode : Nat) (d : Submission), opcode < 256 → d.wf = true →
    (let e := encodeSub opcode d
     e.length = 64 ∧ byteAt e 0 = opcode ∧ byteAt e 1 = d.flags.toNat ∧ leAt e 2 2 = d.tag + 4096 * d.gen ∧ leAt e 4 4 = d.handle.toNat ∧ leAt e 8 8 = d.time
       ∧ leAt e 16 8 = d.bufAddr ∧ leAt e 24 4 = d.bufLen ∧ e.drop 28 = d.args)
      ∧ parseSub d.sq (encodeSub opcode d) d.data = d

/-- A handle is 32 bits: DEVICE_ID in [31:18], UNIT in [17:10], GEN in [9:0] (R27). The handle made of a device, a unit number and a generation holds them
there, and gives each of them back; a handle is made of what it gives. -/
def Obligations.HandleRoundTrip : Prop :=
  (∀ d u g : Nat, d < 16384 → u < 256 → g < 1024 →
    (mkHandle d u g).toNat = d * 2 ^ 18 + u * 2 ^ 10 + g
      ∧ handleDev (mkHandle d u g) = d ∧ handleUnit (mkHandle d u g) = u ∧ handleGen (mkHandle d u g) = g)
  ∧ ∀ h : Word32, mkHandle (handleDev h) (handleUnit h) (handleGen h) = h
end

