-- ==== Sys2Proof/Laws/State.lean ====
section
/-!
SUPPORT. Laws/State.lean: what each update of one part of the state leaves in every part, so that no later proof unfolds a record update.
-/

namespace Sys2Proof.Machine.State

variable (s : State)

section
variable (f : Press → Press)
@[simp] theorem onPress_press : (s.onPress f).press = f s.press := rfl
@[simp] theorem onPress_cmp : (s.onPress f).cmp = s.cmp := rfl
@[simp] theorem onPress_meas : (s.onPress f).meas = s.meas := rfl
@[simp] theorem onPress_vat : (s.onPress f).vat = s.vat := rfl
@[simp] theorem onPress_link : (s.onPress f).link = s.link := rfl
@[simp] theorem onPress_router : (s.onPress f).router = s.router := rfl
@[simp] theorem onPress_time : (s.onPress f).time = s.time := rfl
@[simp] theorem onPress_cave : (s.onPress f).cave = s.cave := rfl
@[simp] theorem onPress_nvm : (s.onPress f).nvm = s.nvm := rfl
@[simp] theorem onPress_fw : (s.onPress f).fw = s.fw := rfl
@[simp] theorem onPress_power : (s.onPress f).power = s.power := rfl
@[simp] theorem onPress_bus : (s.onPress f).bus = s.bus := rfl
@[simp] theorem onPress_draws : (s.onPress f).draws = s.draws := rfl
@[simp] theorem onPress_pending : (s.onPress f).pending = s.pending := rfl
end

section
variable (f : Comparators → Comparators)
@[simp] theorem onCmp_press : (s.onCmp f).press = s.press := rfl
@[simp] theorem onCmp_cmp : (s.onCmp f).cmp = f s.cmp := rfl
@[simp] theorem onCmp_meas : (s.onCmp f).meas = s.meas := rfl
@[simp] theorem onCmp_vat : (s.onCmp f).vat = s.vat := rfl
@[simp] theorem onCmp_link : (s.onCmp f).link = s.link := rfl
@[simp] theorem onCmp_router : (s.onCmp f).router = s.router := rfl
@[simp] theorem onCmp_time : (s.onCmp f).time = s.time := rfl
@[simp] theorem onCmp_cave : (s.onCmp f).cave = s.cave := rfl
@[simp] theorem onCmp_nvm : (s.onCmp f).nvm = s.nvm := rfl
@[simp] theorem onCmp_fw : (s.onCmp f).fw = s.fw := rfl
@[simp] theorem onCmp_power : (s.onCmp f).power = s.power := rfl
@[simp] theorem onCmp_bus : (s.onCmp f).bus = s.bus := rfl
@[simp] theorem onCmp_draws : (s.onCmp f).draws = s.draws := rfl
@[simp] theorem onCmp_pending : (s.onCmp f).pending = s.pending := rfl
end

section
variable (f : Measure → Measure)
@[simp] theorem onMeas_press : (s.onMeas f).press = s.press := rfl
@[simp] theorem onMeas_cmp : (s.onMeas f).cmp = s.cmp := rfl
@[simp] theorem onMeas_meas : (s.onMeas f).meas = f s.meas := rfl
@[simp] theorem onMeas_vat : (s.onMeas f).vat = s.vat := rfl
@[simp] theorem onMeas_link : (s.onMeas f).link = s.link := rfl
@[simp] theorem onMeas_router : (s.onMeas f).router = s.router := rfl
@[simp] theorem onMeas_time : (s.onMeas f).time = s.time := rfl
@[simp] theorem onMeas_cave : (s.onMeas f).cave = s.cave := rfl
@[simp] theorem onMeas_nvm : (s.onMeas f).nvm = s.nvm := rfl
@[simp] theorem onMeas_fw : (s.onMeas f).fw = s.fw := rfl
@[simp] theorem onMeas_power : (s.onMeas f).power = s.power := rfl
@[simp] theorem onMeas_bus : (s.onMeas f).bus = s.bus := rfl
@[simp] theorem onMeas_draws : (s.onMeas f).draws = s.draws := rfl
@[simp] theorem onMeas_pending : (s.onMeas f).pending = s.pending := rfl
end

section
variable (f : Vat → Vat)
@[simp] theorem onVat_press : (s.onVat f).press = s.press := rfl
@[simp] theorem onVat_cmp : (s.onVat f).cmp = s.cmp := rfl
@[simp] theorem onVat_meas : (s.onVat f).meas = s.meas := rfl
@[simp] theorem onVat_vat : (s.onVat f).vat = f s.vat := rfl
@[simp] theorem onVat_link : (s.onVat f).link = s.link := rfl
@[simp] theorem onVat_router : (s.onVat f).router = s.router := rfl
@[simp] theorem onVat_time : (s.onVat f).time = s.time := rfl
@[simp] theorem onVat_cave : (s.onVat f).cave = s.cave := rfl
@[simp] theorem onVat_nvm : (s.onVat f).nvm = s.nvm := rfl
@[simp] theorem onVat_fw : (s.onVat f).fw = s.fw := rfl
@[simp] theorem onVat_power : (s.onVat f).power = s.power := rfl
@[simp] theorem onVat_bus : (s.onVat f).bus = s.bus := rfl
@[simp] theorem onVat_draws : (s.onVat f).draws = s.draws := rfl
@[simp] theorem onVat_pending : (s.onVat f).pending = s.pending := rfl
end

section
variable (f : Link → Link)
@[simp] theorem onLink_press : (s.onLink f).press = s.press := rfl
@[simp] theorem onLink_cmp : (s.onLink f).cmp = s.cmp := rfl
@[simp] theorem onLink_meas : (s.onLink f).meas = s.meas := rfl
@[simp] theorem onLink_vat : (s.onLink f).vat = s.vat := rfl
@[simp] theorem onLink_link : (s.onLink f).link = f s.link := rfl
@[simp] theorem onLink_router : (s.onLink f).router = s.router := rfl
@[simp] theorem onLink_time : (s.onLink f).time = s.time := rfl
@[simp] theorem onLink_cave : (s.onLink f).cave = s.cave := rfl
@[simp] theorem onLink_nvm : (s.onLink f).nvm = s.nvm := rfl
@[simp] theorem onLink_fw : (s.onLink f).fw = s.fw := rfl
@[simp] theorem onLink_power : (s.onLink f).power = s.power := rfl
@[simp] theorem onLink_bus : (s.onLink f).bus = s.bus := rfl
@[simp] theorem onLink_draws : (s.onLink f).draws = s.draws := rfl
@[simp] theorem onLink_pending : (s.onLink f).pending = s.pending := rfl
end

section
variable (f : Router → Router)
@[simp] theorem onRouter_press : (s.onRouter f).press = s.press := rfl
@[simp] theorem onRouter_cmp : (s.onRouter f).cmp = s.cmp := rfl
@[simp] theorem onRouter_meas : (s.onRouter f).meas = s.meas := rfl
@[simp] theorem onRouter_vat : (s.onRouter f).vat = s.vat := rfl
@[simp] theorem onRouter_link : (s.onRouter f).link = s.link := rfl
@[simp] theorem onRouter_router : (s.onRouter f).router = f s.router := rfl
@[simp] theorem onRouter_time : (s.onRouter f).time = s.time := rfl
@[simp] theorem onRouter_cave : (s.onRouter f).cave = s.cave := rfl
@[simp] theorem onRouter_nvm : (s.onRouter f).nvm = s.nvm := rfl
@[simp] theorem onRouter_fw : (s.onRouter f).fw = s.fw := rfl
@[simp] theorem onRouter_power : (s.onRouter f).power = s.power := rfl
@[simp] theorem onRouter_bus : (s.onRouter f).bus = s.bus := rfl
@[simp] theorem onRouter_draws : (s.onRouter f).draws = s.draws := rfl
@[simp] theorem onRouter_pending : (s.onRouter f).pending = s.pending := rfl
end

section
variable (f : Time → Time)
@[simp] theorem onTime_press : (s.onTime f).press = s.press := rfl
@[simp] theorem onTime_cmp : (s.onTime f).cmp = s.cmp := rfl
@[simp] theorem onTime_meas : (s.onTime f).meas = s.meas := rfl
@[simp] theorem onTime_vat : (s.onTime f).vat = s.vat := rfl
@[simp] theorem onTime_link : (s.onTime f).link = s.link := rfl
@[simp] theorem onTime_router : (s.onTime f).router = s.router := rfl
@[simp] theorem onTime_time : (s.onTime f).time = f s.time := rfl
@[simp] theorem onTime_cave : (s.onTime f).cave = s.cave := rfl
@[simp] theorem onTime_nvm : (s.onTime f).nvm = s.nvm := rfl
@[simp] theorem onTime_fw : (s.onTime f).fw = s.fw := rfl
@[simp] theorem onTime_power : (s.onTime f).power = s.power := rfl
@[simp] theorem onTime_bus : (s.onTime f).bus = s.bus := rfl
@[simp] theorem onTime_draws : (s.onTime f).draws = s.draws := rfl
@[simp] theorem onTime_pending : (s.onTime f).pending = s.pending := rfl
end

section
variable (f : Cave → Cave)
@[simp] theorem onCave_press : (s.onCave f).press = s.press := rfl
@[simp] theorem onCave_cmp : (s.onCave f).cmp = s.cmp := rfl
@[simp] theorem onCave_meas : (s.onCave f).meas = s.meas := rfl
@[simp] theorem onCave_vat : (s.onCave f).vat = s.vat := rfl
@[simp] theorem onCave_link : (s.onCave f).link = s.link := rfl
@[simp] theorem onCave_router : (s.onCave f).router = s.router := rfl
@[simp] theorem onCave_time : (s.onCave f).time = s.time := rfl
@[simp] theorem onCave_cave : (s.onCave f).cave = f s.cave := rfl
@[simp] theorem onCave_nvm : (s.onCave f).nvm = s.nvm := rfl
@[simp] theorem onCave_fw : (s.onCave f).fw = s.fw := rfl
@[simp] theorem onCave_power : (s.onCave f).power = s.power := rfl
@[simp] theorem onCave_bus : (s.onCave f).bus = s.bus := rfl
@[simp] theorem onCave_draws : (s.onCave f).draws = s.draws := rfl
@[simp] theorem onCave_pending : (s.onCave f).pending = s.pending := rfl
end

section
variable (f : Nvm → Nvm)
@[simp] theorem onNvm_press : (s.onNvm f).press = s.press := rfl
@[simp] theorem onNvm_cmp : (s.onNvm f).cmp = s.cmp := rfl
@[simp] theorem onNvm_meas : (s.onNvm f).meas = s.meas := rfl
@[simp] theorem onNvm_vat : (s.onNvm f).vat = s.vat := rfl
@[simp] theorem onNvm_link : (s.onNvm f).link = s.link := rfl
@[simp] theorem onNvm_router : (s.onNvm f).router = s.router := rfl
@[simp] theorem onNvm_time : (s.onNvm f).time = s.time := rfl
@[simp] theorem onNvm_cave : (s.onNvm f).cave = s.cave := rfl
@[simp] theorem onNvm_nvm : (s.onNvm f).nvm = f s.nvm := rfl
@[simp] theorem onNvm_fw : (s.onNvm f).fw = s.fw := rfl
@[simp] theorem onNvm_power : (s.onNvm f).power = s.power := rfl
@[simp] theorem onNvm_bus : (s.onNvm f).bus = s.bus := rfl
@[simp] theorem onNvm_draws : (s.onNvm f).draws = s.draws := rfl
@[simp] theorem onNvm_pending : (s.onNvm f).pending = s.pending := rfl
end

section
variable (f : Firmware → Firmware)
@[simp] theorem onFw_press : (s.onFw f).press = s.press := rfl
@[simp] theorem onFw_cmp : (s.onFw f).cmp = s.cmp := rfl
@[simp] theorem onFw_meas : (s.onFw f).meas = s.meas := rfl
@[simp] theorem onFw_vat : (s.onFw f).vat = s.vat := rfl
@[simp] theorem onFw_link : (s.onFw f).link = s.link := rfl
@[simp] theorem onFw_router : (s.onFw f).router = s.router := rfl
@[simp] theorem onFw_time : (s.onFw f).time = s.time := rfl
@[simp] theorem onFw_cave : (s.onFw f).cave = s.cave := rfl
@[simp] theorem onFw_nvm : (s.onFw f).nvm = s.nvm := rfl
@[simp] theorem onFw_fw : (s.onFw f).fw = f s.fw := rfl
@[simp] theorem onFw_power : (s.onFw f).power = s.power := rfl
@[simp] theorem onFw_bus : (s.onFw f).bus = s.bus := rfl
@[simp] theorem onFw_draws : (s.onFw f).draws = s.draws := rfl
@[simp] theorem onFw_pending : (s.onFw f).pending = s.pending := rfl
end

section
variable (f : Power → Power)
@[simp] theorem onPower_press : (s.onPower f).press = s.press := rfl
@[simp] theorem onPower_cmp : (s.onPower f).cmp = s.cmp := rfl
@[simp] theorem onPower_meas : (s.onPower f).meas = s.meas := rfl
@[simp] theorem onPower_vat : (s.onPower f).vat = s.vat := rfl
@[simp] theorem onPower_link : (s.onPower f).link = s.link := rfl
@[simp] theorem onPower_router : (s.onPower f).router = s.router := rfl
@[simp] theorem onPower_time : (s.onPower f).time = s.time := rfl
@[simp] theorem onPower_cave : (s.onPower f).cave = s.cave := rfl
@[simp] theorem onPower_nvm : (s.onPower f).nvm = s.nvm := rfl
@[simp] theorem onPower_fw : (s.onPower f).fw = s.fw := rfl
@[simp] theorem onPower_power : (s.onPower f).power = f s.power := rfl
@[simp] theorem onPower_bus : (s.onPower f).bus = s.bus := rfl
@[simp] theorem onPower_draws : (s.onPower f).draws = s.draws := rfl
@[simp] theorem onPower_pending : (s.onPower f).pending = s.pending := rfl
end

section
variable (f : Bus → Bus)
@[simp] theorem onBus_press : (s.onBus f).press = s.press := rfl
@[simp] theorem onBus_cmp : (s.onBus f).cmp = s.cmp := rfl
@[simp] theorem onBus_meas : (s.onBus f).meas = s.meas := rfl
@[simp] theorem onBus_vat : (s.onBus f).vat = s.vat := rfl
@[simp] theorem onBus_link : (s.onBus f).link = s.link := rfl
@[simp] theorem onBus_router : (s.onBus f).router = s.router := rfl
@[simp] theorem onBus_time : (s.onBus f).time = s.time := rfl
@[simp] theorem onBus_cave : (s.onBus f).cave = s.cave := rfl
@[simp] theorem onBus_nvm : (s.onBus f).nvm = s.nvm := rfl
@[simp] theorem onBus_fw : (s.onBus f).fw = s.fw := rfl
@[simp] theorem onBus_power : (s.onBus f).power = s.power := rfl
@[simp] theorem onBus_bus : (s.onBus f).bus = f s.bus := rfl
@[simp] theorem onBus_draws : (s.onBus f).draws = s.draws := rfl
@[simp] theorem onBus_pending : (s.onBus f).pending = s.pending := rfl
end

end Sys2Proof.Machine.State
end

