-- ==== Sys2Proof/Laws/Table.lean ====
section
/-!
SUPPORT. Laws/Table.lean: the laws of sparse tables and byte memories: read after write, what a write leaves, and the canonical form that every operation keeps.
-/

namespace Sys2Proof.Machine

variable {α : Type}

@[simp] theorem Tbl.find_nil (k : Nat) : Tbl.find ([] : Tbl α) k = none := rfl

@[simp] theorem Tbl.get_nil (d : α) (k : Nat) : Tbl.get d ([] : Tbl α) k = d := rfl

/-- Read after write, at the same key. -/
@[simp] theorem Tbl.find_put_same (m : Tbl α) (k : Nat) (a : α) : Tbl.find (Tbl.put m k a) k = some a := by
  induction m with
  | nil => simp [Tbl.put, Tbl.find]
  | cons x m ih =>
    obtain ⟨j, b⟩ := x
    simp only [Tbl.put]
    split
    · simp [Tbl.find]
    · split
      · simp [Tbl.find]
      · next h => simp only [Tbl.find]; rw [if_neg (fun e => h e.symm)]; exact ih

/-- A write leaves every other key. -/
theorem Tbl.find_put_ne (m : Tbl α) {j k : Nat} (a : α) (h : j ≠ k) : Tbl.find (Tbl.put m k a) j = Tbl.find m j := by
  induction m with
  | nil => simp [Tbl.put, Tbl.find, Ne.symm h]
  | cons x m ih =>
    obtain ⟨i, b⟩ := x
    simp only [Tbl.put]
    split
    · simp [Tbl.find, Ne.symm h]
    · split
      · next e => subst e; simp [Tbl.find, Ne.symm h]
      · simp only [Tbl.find]; split
        · rfl
        · exact ih

@[simp] theorem Tbl.get_put_same (d : α) (m : Tbl α) (k : Nat) (a : α) : Tbl.get d (Tbl.put m k a) k = a := by
  simp [Tbl.get]

theorem Tbl.get_put_ne (d : α) (m : Tbl α) {j k : Nat} (a : α) (h : j ≠ k) : Tbl.get d (Tbl.put m k a) j = Tbl.get d m j := by
  simp [Tbl.get, Tbl.find_put_ne m a h]

/-- Read after write, at any key. -/
theorem Tbl.get_put (d : α) (m : Tbl α) (j k : Nat) (a : α) : Tbl.get d (Tbl.put m k a) j = if j = k then a else Tbl.get d m j := by
  by_cases h : j = k
  · subst h; simp
  · rw [if_neg h, Tbl.get_put_ne d m a h]

/-- Nothing is listed at a deleted key. -/
@[simp] theorem Tbl.find_del_same (m : Tbl α) (k : Nat) : Tbl.find (Tbl.del m k) k = none := by
  induction m with
  | nil => rfl
  | cons x m ih =>
    obtain ⟨j, b⟩ := x
    simp only [Tbl.del]
    split
    · exact ih
    · next h => simp [Tbl.find, h, ih]

/-- A deletion leaves every other key. -/
theorem Tbl.find_del_ne (m : Tbl α) {j k : Nat} (h : j ≠ k) : Tbl.find (Tbl.del m k) j = Tbl.find m j := by
  induction m with
  | nil => rfl
  | cons x m ih =>
    obtain ⟨i, b⟩ := x
    simp only [Tbl.del]
    split
    · next e => subst e; simp [Tbl.find, Ne.symm h, ih]
    · simp only [Tbl.find]; split
      · rfl
      · exact ih

/-- A value written where an unlisted key reads as `d` is read back. -/
theorem Tbl.get_set [DecidableEq α] (d : α) (m : Tbl α) (j k : Nat) (a : α) :
    Tbl.get d (Tbl.set d m k a) j = if j = k then a else Tbl.get d m j := by
  unfold Tbl.set
  split
  · next e =>
    by_cases h : j = k
    · subst h; simp [Tbl.get, e]
    · simp [Tbl.get, Tbl.find_del_ne m h, h]
  · exact Tbl.get_put d m j k a

/-! ## The canonical form -/

/-- A lower bound on the keys may be weakened. -/
theorem Tbl.above_mono {a b : Nat} (m : Tbl α) (h : a ≤ b) (w : Tbl.above (some b) m = true) : Tbl.above (some a) m = true := by
  cases m with
  | nil => rfl
  | cons x m =>
    simp only [Tbl.above, Bool.and_eq_true, decide_eq_true_eq] at *
    exact ⟨by omega, w.2⟩

theorem Tbl.above_none {a : Nat} (m : Tbl α) (w : Tbl.above (some a) m = true) : Tbl.above none m = true := by
  cases m with
  | nil => rfl
  | cons x m =>
    simp only [Tbl.above, Bool.and_eq_true] at *
    exact w.2

theorem Tbl.above_put (m : Tbl α) (k : Nat) (a : α) (n : Nat) (hn : n < k) (w : Tbl.above (some n) m = true) :
    Tbl.above (some n) (Tbl.put m k a) = true := by
  induction m generalizing n with
  | nil => simp [Tbl.put, Tbl.above, hn]
  | cons x m ih =>
    obtain ⟨j, b⟩ := x
    simp only [Tbl.above, Bool.and_eq_true, decide_eq_true_eq] at w
    simp only [Tbl.put]
    split
    · next h => simp [Tbl.above, hn, h, w.2]
    · split
      · next e => subst e; simp [Tbl.above, hn, w.2]
      · next h1 h2 =>
        simp only [Tbl.above, Bool.and_eq_true, decide_eq_true_eq]
        exact ⟨w.1, ih j (by omega) w.2⟩

/-- A write keeps the canonical form. -/
theorem Tbl.put_wf (m : Tbl α) (k : Nat) (a : α) (w : Tbl.wf m = true) : Tbl.wf (Tbl.put m k a) = true := by
  cases m with
  | nil => rfl
  | cons x m =>
    obtain ⟨j, b⟩ := x
    simp only [Tbl.wf, Tbl.above] at w
    simp only [Tbl.put, Tbl.wf]
    split
    · next h => simp [Tbl.above, h, w]
    · split
      · next e => subst e; simpa [Tbl.above] using w
      · simp only [Tbl.above]; exact Tbl.above_put m k a j (by omega) w

theorem Tbl.above_del (m : Tbl α) (k n : Nat) (w : Tbl.above (some n) m = true) : Tbl.above (some n) (Tbl.del m k) = true := by
  induction m generalizing n with
  | nil => rfl
  | cons x m ih =>
    obtain ⟨j, b⟩ := x
    simp only [Tbl.above, Bool.and_eq_true, decide_eq_true_eq] at w
    simp only [Tbl.del]
    split
    · exact ih n (Tbl.above_mono m (by omega) w.2)
    · simp only [Tbl.above, Bool.and_eq_true, decide_eq_true_eq]; exact ⟨w.1, ih j w.2⟩

/-- A deletion keeps the canonical form. -/
theorem Tbl.del_wf (m : Tbl α) (k : Nat) (w : Tbl.wf m = true) : Tbl.wf (Tbl.del m k) = true := by
  cases m with
  | nil => rfl
  | cons x m =>
    obtain ⟨j, b⟩ := x
    simp only [Tbl.wf, Tbl.above] at w
    simp only [Tbl.del, Tbl.wf]
    split
    · exact Tbl.above_none _ (Tbl.above_del m k j w)
    · simp only [Tbl.above]; exact Tbl.above_del m k j w

/-- A write under the reading of unlisted keys keeps the canonical form. -/
theorem Tbl.set_wf [DecidableEq α] (d : α) (m : Tbl α) (k : Nat) (a : α) (w : Tbl.wf m = true) : Tbl.wf (Tbl.set d m k a) = true := by
  unfold Tbl.set
  split
  · exact Tbl.del_wf m k w
  · exact Tbl.put_wf m k a w

/-! ## Byte memories -/

/-- A byte stored is read back, and every other byte is as before. -/
theorem loadByte_storeByte (m : Mem) (a x : Nat) (b : Byte) : loadByte (storeByte m a b) x = if x = a then b else loadByte m x :=
  Tbl.get_set 0 m x a b

/-- A store leaves the bytes outside its range. -/
theorem Mem.get_store_outside (d : Byte) (m : Mem) (a : Nat) (bs : List Byte) (x : Nat) (h : x < a ∨ a + bs.length ≤ x) :
    Tbl.get d (Mem.store d m a bs) x = Tbl.get d m x := by
  induction bs generalizing m a with
  | nil => rfl
  | cons b bs ih =>
    simp only [Mem.store]
    simp only [List.length_cons] at h
    rw [ih _ _ (by omega), Tbl.get_set, if_neg (by omega)]

theorem loadByte_storeBytes_outside (m : Mem) (a : Nat) (bs : List Byte) (x : Nat) (h : x < a ∨ a + bs.length ≤ x) :
    loadByte (storeBytes m a bs) x = loadByte m x := Mem.get_store_outside 0 m a bs x h

/-- The bytes of a store are read back. -/
theorem loadBytes_storeBytes (m : Mem) (a : Nat) (bs : List Byte) : loadBytes (storeBytes m a bs) a bs.length = bs := by
  induction bs generalizing m a with
  | nil => rfl
  | cons b bs ih =>
    have h := ih (Tbl.set 0 m a b) (a + 1)
    simp only [storeBytes, Mem.store, List.length_cons, loadBytes] at h ⊢
    have e : loadByte (Mem.store 0 (Tbl.set 0 m a b) (a + 1) bs) a = b := by
      unfold loadByte
      rw [Mem.get_store_outside _ _ _ _ _ (by omega), Tbl.get_set, if_pos rfl]
    rw [h, e]

theorem Tbl.mem_del {α : Type} (m : Tbl α) (k : Nat) (p : Nat × α) (h : p ∈ Tbl.del m k) : p ∈ m := by
  induction m with
  | nil => exact h
  | cons x m ih =>
    obtain ⟨j, b⟩ := x
    simp only [Tbl.del] at h
    split at h
    · exact List.mem_cons_of_mem _ (ih h)
    · rcases List.mem_cons.mp h with e | h
      · exact e ▸ List.mem_cons_self
      · exact List.mem_cons_of_mem _ (ih h)

theorem Tbl.mem_put {α : Type} (m : Tbl α) (k : Nat) (a : α) (p : Nat × α) (h : p ∈ Tbl.put m k a) : p = (k, a) ∨ p ∈ m := by
  induction m with
  | nil => exact Or.inl (by simpa [Tbl.put] using h)
  | cons x m ih =>
    obtain ⟨j, b⟩ := x
    simp only [Tbl.put] at h
    split at h
    · rcases List.mem_cons.mp h with e | h
      · exact Or.inl e
      · exact Or.inr h
    · split at h
      · rcases List.mem_cons.mp h with e | h
        · exact Or.inl e
        · exact Or.inr (List.mem_cons_of_mem _ h)
      · rcases List.mem_cons.mp h with e | h
        · exact Or.inr (e ▸ List.mem_cons_self)
        · exact (ih h).imp id (List.mem_cons_of_mem _)

/-- A store keeps the canonical form of a memory. -/
theorem Mem.store_wf (d : Byte) (m : Mem) (a : Nat) (bs : List Byte) (w : Mem.wf (some d) m = true) : Mem.wf (some d) (Mem.store d m a bs) = true := by
  induction bs generalizing m a with
  | nil => exact w
  | cons b bs ih =>
    refine ih _ _ ?_
    simp only [Mem.wf, Bool.and_eq_true, List.all_eq_true, bne_iff_ne, ne_eq, Option.some.injEq] at w ⊢
    refine ⟨Tbl.set_wf d m a b w.1, fun p hp => ?_⟩
    unfold Tbl.set at hp
    split at hp
    · exact w.2 p (Tbl.mem_del m a p hp)
    · next hb =>
      rcases Tbl.mem_put m a b p hp with e | hp
      · rw [e]; exact hb
      · exact w.2 p hp

/-- A write that lists each byte keeps the canonical form of a memory whose unlisted addresses have no value of the device's. -/
theorem Mem.write_wf (m : Mem) (a : Nat) (bs : List Byte) (w : Mem.wf none m = true) : Mem.wf none (Mem.write m a bs) = true := by
  induction bs generalizing m a with
  | nil => exact w
  | cons b bs ih =>
    refine ih _ _ ?_
    simp only [Mem.wf, Bool.and_eq_true, List.all_eq_true, bne_iff_ne, ne_eq] at w ⊢
    exact ⟨Tbl.put_wf m a b w.1, fun p _ => by simp⟩

/-- A write is read back, and it leaves the bytes outside its range. -/
theorem Mem.find_write_outside (m : Mem) (a : Nat) (bs : List Byte) (x : Nat) (h : x < a ∨ a + bs.length ≤ x) :
    Tbl.find (Mem.write m a bs) x = Tbl.find m x := by
  induction bs generalizing m a with
  | nil => rfl
  | cons b bs ih =>
    simp only [Mem.write]
    simp only [List.length_cons] at h
    rw [ih _ _ (by omega), Tbl.find_put_ne _ _ (by omega)]

theorem Mem.find_write_inside (m : Mem) (a : Nat) (bs : List Byte) (i : Nat) (h : i < bs.length) :
    Tbl.find (Mem.write m a bs) (a + i) = some bs[i] := by
  induction bs generalizing m a i with
  | nil => exact absurd h (by simp)
  | cons b bs ih =>
    cases i with
    | zero => simp only [Mem.write, Nat.add_zero]; rw [Mem.find_write_outside _ _ _ _ (by omega)]; simp
    | succ i =>
      simp only [Mem.write]
      have := ih (Tbl.put m a b) (a + 1) i (by simpa using h)
      simpa [Nat.add_assoc, Nat.add_comm 1 i] using this

end Sys2Proof.Machine
end

