-- ==== Sys2Proof/Laws/Frames.lean ====
section
/-!
SUPPORT. Laws/Frames.lean: which parts of the state the shared operations can touch at all: tiles, events entering the router, the protection of a leaf, the end of
a row.
-/

namespace Sys2Proof.Machine

/-- A relation that a step keeps holds over a fold of such steps. -/
theorem foldl_keeps {σ α : Type} (R : σ → σ → Prop) (refl : ∀ s, R s s) (trans : ∀ a b c, R a b → R b c → R a c) (f : σ → α → σ) (l : List α) (s : σ)
    (h : ∀ s x, R s (f s x)) : R s (l.foldl f s) := by
  induction l generalizing s with
  | nil => exact refl s
  | cons x l ih => exact trans _ _ _ (h s x) (ih _)

/-! ## Operations on tiles -/

/-- Only the Vat and the count of free choices may differ. -/
def VatOnly (s t : State) : Prop := t = { s with vat := t.vat, draws := t.draws }

theorem VatOnly.refl (s : State) : VatOnly s s := rfl

theorem VatOnly.trans (a b c : State) (h : VatOnly a b) (k : VatOnly b c) : VatOnly a c := by
  unfold VatOnly at *; rw [k, h]

theorem vatOnly_setTag (s : State) (t : Nat) (g : Tag) : VatOnly s (setTag s t g) := rfl

theorem vatOnly_setRefs (s : State) (h : Nat) (rs : List (Nat × Nat)) : VatOnly s (setRefs s h rs) := rfl

theorem vatOnly_fillTile (s : State) (h t : Nat) : VatOnly s (fillTile s h t) := rfl

theorem vatOnly_allocTile (s : State) (h : Nat) : VatOnly s (allocTile s h) := by
  unfold allocTile; dsimp only; split <;> rfl

theorem vatOnly_closeRef (s : State) (r : Nat × Nat) (c : Option (List Byte)) : VatOnly s (closeRef s r c) := by
  unfold closeRef; split <;> rfl

theorem vatOnly_closeTile (s : State) (h : Nat) (c : Option (List Byte)) : VatOnly s (closeTile s h c) := by
  unfold closeTile; split
  · rfl
  · exact vatOnly_closeRef _ _ _

theorem vatOnly_freeRef (s : State) (h : Nat) (r : Nat × Nat) : VatOnly s (freeRef s h r) := by
  unfold freeRef; dsimp only; split <;> rfl

theorem vatOnly_freeRefs (s : State) (h : Nat) (rs : List (Nat × Nat)) : VatOnly s (freeRefs s h rs) :=
  foldl_keeps VatOnly VatOnly.refl VatOnly.trans _ _ _ fun s r => vatOnly_freeRef s h r

theorem vatOnly_takeTiles (s : State) (h n : Nat) : VatOnly s (takeTiles h n s).1 :=
  foldl_keeps VatOnly VatOnly.refl VatOnly.trans _ _ _ fun s _ => vatOnly_allocTile s h

theorem vatOnly_closeRefs (s : State) (rs : List (Nat × Nat)) (bs : List Byte) : VatOnly s (closeRefs rs bs s) :=
  foldl_keeps VatOnly VatOnly.refl VatOnly.trans _ _ _ fun s _ => vatOnly_closeRef s _ _

theorem vatOnly_stageBytes (s : State) (h : Nat) (bs : List Byte) : VatOnly s (stageBytes h bs s).1 :=
  VatOnly.trans _ _ _ (vatOnly_takeTiles s h _) (vatOnly_closeRefs _ _ _)

theorem vatOnly_passBytes (s : State) (h : Nat) (bs : List Byte) : VatOnly s (passBytes h bs s) :=
  foldl_keeps VatOnly VatOnly.refl VatOnly.trans _ _ _ fun s _ => VatOnly.trans _ _ _ (vatOnly_stageBytes s h _) (vatOnly_freeRefs _ _ _)

theorem vatOnly_releaseTile (s : State) (h : Nat) : VatOnly s (releaseTile s h) := by
  unfold releaseTile; split
  · rfl
  · exact vatOnly_freeRef _ _ _

theorem vatOnly_releaseAll (s : State) (h : Nat) : VatOnly s (releaseAll s h) :=
  foldl_keeps VatOnly VatOnly.refl VatOnly.trans _ _ _ fun s r => vatOnly_freeRef s h r

theorem vatOnly_syncTiles (s : State) (h n : Nat) (o : Bool) : VatOnly s (syncTiles s h n o) := by
  unfold syncTiles
  dsimp only
  refine VatOnly.trans _ _ _ ?_ (foldl_keeps VatOnly VatOnly.refl VatOnly.trans _ _ _ fun s i => ?_)
  · split
    · exact VatOnly.trans _ _ _ (foldl_keeps VatOnly VatOnly.refl VatOnly.trans _ _ _ fun s _ => vatOnly_releaseTile s h) (vatOnly_closeTile _ _ _)
    · exact foldl_keeps VatOnly VatOnly.refl VatOnly.trans _ _ _ fun s _ => vatOnly_releaseTile s h
  · split
    · exact vatOnly_allocTile s h
    · exact VatOnly.trans _ _ _ (vatOnly_allocTile s h) (vatOnly_closeTile _ _ _)

@[simp] theorem syncTiles_link (s : State) (h n : Nat) (o : Bool) : (syncTiles s h n o).link = s.link := by rw [vatOnly_syncTiles s h n o]
@[simp] theorem syncTiles_press (s : State) (h n : Nat) (o : Bool) : (syncTiles s h n o).press = s.press := by rw [vatOnly_syncTiles s h n o]
@[simp] theorem syncTiles_bus (s : State) (h n : Nat) (o : Bool) : (syncTiles s h n o).bus = s.bus := by rw [vatOnly_syncTiles s h n o]
@[simp] theorem releaseAll_link (s : State) (h : Nat) : (releaseAll s h).link = s.link := by rw [vatOnly_releaseAll s h]
@[simp] theorem releaseAll_meas (s : State) (h : Nat) : (releaseAll s h).meas = s.meas := by rw [vatOnly_releaseAll s h]

/-! ## Events entering the router (R375, R378) -/

theorem RouterOnly.refl (s : State) : RouterOnly s s := rfl

theorem RouterOnly.trans (a b c : State) (h : RouterOnly a b) (k : RouterOnly b c) : RouterOnly a c := by
  unfold RouterOnly at *; rw [k, h]

theorem VatOnly.router {s t : State} (h : VatOnly s t) : RouterOnly s t := by unfold VatOnly RouterOnly at *; rw [h]

theorem routerOnly_syncStaging (s : State) : RouterOnly s (syncStaging s) := (vatOnly_syncTiles s _ _ _).router

theorem routerOnly_stageRec (s : State) (r : CaveRec) : RouterOnly s (stageRec s r) := by
  unfold stageRec; split
  · exact RouterOnly.trans _ _ _ (by rfl) (routerOnly_syncStaging _)
  · rfl

theorem routerOnly_programNow (s : State) (r : CaveRec) : RouterOnly s (programNow s r) := by
  have h : RouterOnly s (syncStaging (s.onCave fun c => programRec c r)) := RouterOnly.trans _ _ _ (by rfl) (routerOnly_syncStaging _)
  unfold programNow; dsimp only; split
  · exact RouterOnly.trans _ _ _ h (by rfl)
  · exact h

theorem routerOnly_commitRec (s : State) (r : CaveRec) : RouterOnly s (commitRec s r) := by
  unfold commitRec; split
  · exact RouterOnly.trans _ _ _ (vatOnly_passBytes s 2 _).router (routerOnly_programNow _ r)
  · exact routerOnly_stageRec s r

theorem routerOnly_commitOpen (s : State) : RouterOnly s (commitOpen s) := by
  unfold commitOpen; split
  · rfl
  · dsimp only; split
    · exact RouterOnly.trans _ _ _ (by rfl) (routerOnly_programNow _ _)
    · exact RouterOnly.trans _ _ _ (by rfl) (routerOnly_stageRec _ _)

theorem routerOnly_record (s : State) (src code : Nat) (a b c : Word32) : RouterOnly s (record s src code a b c) := by
  unfold record
  dsimp only
  split
  · rfl
  · split
    · exact RouterOnly.trans _ _ _ (routerOnly_commitOpen s) (routerOnly_commitRec _ _)
    · exact routerOnly_stageRec _ _
  · split
    · split
      · split
        · rfl
        · exact RouterOnly.trans _ _ _ (routerOnly_commitOpen s) (RouterOnly.trans _ _ _ (by rfl) (routerOnly_syncStaging _))
      · exact RouterOnly.trans _ _ _ (by rfl) (routerOnly_syncStaging _)
    · exact routerOnly_stageRec _ _

theorem routerOnly_recordRuleEnd (s : State) : RouterOnly s (recordRuleEnd s) := by
  unfold recordRuleEnd; dsimp only; split
  · exact RouterOnly.trans _ _ _ (RouterOnly.trans _ _ _ (by rfl) (routerOnly_commitOpen _)) (routerOnly_commitRec _ _)
  · exact RouterOnly.trans _ _ _ (by rfl) (routerOnly_stageRec _ _)

theorem routerOnly_busLatches (s : State) (code : Nat) : RouterOnly s (busLatches s code) := by
  unfold busLatches; split
  · rfl
  · split
    · rfl
    · split <;> rfl

theorem routerOnly_fireCapture (s : State) (k src code t : Nat) : RouterOnly s (fireCapture s k src code t) := by
  unfold fireCapture; dsimp only; split <;> rfl

theorem routerOnly_captureTriggers (s : State) (src code t : Nat) : RouterOnly s (captureTriggers s src code t) := by
  refine foldl_keeps RouterOnly RouterOnly.refl RouterOnly.trans _ _ _ fun s k => ?_
  split
  · exact routerOnly_fireCapture _ _ _ _ _
  · rfl

theorem routerOnly_seqTrigger (s : State) (id t : Nat) : RouterOnly s (seqTrigger s id t) := by
  unfold seqTrigger; split
  · rfl
  · dsimp only; split
    · rfl
    · split
      · rfl
      · split <;> rfl

theorem routerOnly_seqTriggers (s : State) (src code t : Nat) : RouterOnly s (seqTriggers s src code t) := by
  refine foldl_keeps RouterOnly RouterOnly.refl RouterOnly.trans _ _ _ fun s k => ?_
  split
  · split
    · exact routerOnly_seqTrigger _ _ _
    · rfl
  · rfl

theorem routerOnly_issueOwn (s : State) (op : Op) (sub : Submission) : RouterOnly s (issueOwn s op sub) := by
  unfold issueOwn; split
  · exact routerOnly_recordRuleEnd s
  · rfl

theorem routerOnly_issueRule (s : State) (rc : Recipe) (r : Rule) (t : Nat) : RouterOnly s (issueRule s rc r t) := by
  unfold issueRule; dsimp only; split <;> exact routerOnly_issueOwn _ _ _

theorem routerOnly_ruleTriggers (s : State) (e : RawEvent) (t : Nat) : RouterOnly s (ruleTriggers s e t) := by
  unfold ruleTriggers; split
  · split
    · rfl
    · exact foldl_keeps RouterOnly RouterOnly.refl RouterOnly.trans _ _ _ fun s r => routerOnly_issueRule _ _ _ _
  · rfl

theorem routerOnly_syncEvTiles (s : State) (r : Nat) : RouterOnly s (syncEvTiles s r) := (vatOnly_syncTiles s _ _ _).router

theorem routerOnly_closeEvTile (s : State) (r : Nat) : RouterOnly s (closeEvTile s r) := by
  unfold closeEvTile; split
  · rfl
  · exact RouterOnly.trans _ _ _ (by rfl) (routerOnly_syncEvTiles _ _)

theorem routerOnly_stageEvent (s : State) (r : Nat) (e : Event) : RouterOnly s (stageEvent s r e) := by
  unfold stageEvent
  split
  · rfl
  · dsimp only
    split
    · exact RouterOnly.trans _ _ _ (RouterOnly.trans _ _ _ (by rfl) (routerOnly_syncEvTiles _ _)) (routerOnly_closeEvTile _ _)
    · exact RouterOnly.trans _ _ _ (by rfl) (routerOnly_syncEvTiles _ _)

theorem routerOnly_refill (s : State) (src t : Nat) : RouterOnly s (refill s src t) := by
  unfold refill; dsimp only; split <;> rfl

theorem routerOnly_deliver (s : State) (e : RawEvent) (t : Nat) : RouterOnly s (deliver s e t) := by
  unfold deliver
  dsimp only
  refine RouterOnly.trans _ _ _ (routerOnly_refill s e.source t) ?_
  generalize refill s e.source t = s
  split
  · rfl
  · split
    · rfl
    · split
      · exact routerOnly_stageEvent _ _ _
      · split
        · exact RouterOnly.trans _ _ _ (by rfl) (routerOnly_stageEvent _ _ _)
        · split
          · exact routerOnly_stageEvent _ _ _
          · rfl

/-- What the entry of an event to the router may touch. -/
theorem routerOnly_ingress (s : State) (e : RawEvent) (t : Nat) : RouterOnly s (ingress s e t) := by
  unfold ingress
  split
  · rfl
  · exact RouterOnly.trans _ _ _ (routerOnly_record ..) <| RouterOnly.trans _ _ _ (routerOnly_busLatches ..) <|
      RouterOnly.trans _ _ _ (routerOnly_captureTriggers ..) <| RouterOnly.trans _ _ _ (routerOnly_seqTriggers ..) <|
      RouterOnly.trans _ _ _ (routerOnly_ruleTriggers ..) (routerOnly_deliver ..)

theorem routerOnly_enter (s : State) (e : RawEvent) (t : Nat) : RouterOnly s (enter s e t) :=
  RouterOnly.trans _ _ _ (by rfl) (routerOnly_ingress _ _ _)

theorem routerOnly_raise (s : State) (src code : Nat) (a b c : Word32) : RouterOnly s (raise s src code a b c) := routerOnly_enter _ _ _

@[simp] theorem raise_press (s : State) (src code : Nat) (a b c : Word32) : (raise s src code a b c).press = s.press := by rw [routerOnly_raise s src code a b c]
@[simp] theorem raise_cmp (s : State) (src code : Nat) (a b c : Word32) : (raise s src code a b c).cmp = s.cmp := by rw [routerOnly_raise s src code a b c]
@[simp] theorem raise_time (s : State) (src code : Nat) (a b c : Word32) : (raise s src code a b c).time = s.time := by rw [routerOnly_raise s src code a b c]
@[simp] theorem raise_nvm (s : State) (src code : Nat) (a b c : Word32) : (raise s src code a b c).nvm = s.nvm := by rw [routerOnly_raise s src code a b c]
@[simp] theorem raise_fw (s : State) (src code : Nat) (a b c : Word32) : (raise s src code a b c).fw = s.fw := by rw [routerOnly_raise s src code a b c]
@[simp] theorem raise_power (s : State) (src code : Nat) (a b c : Word32) : (raise s src code a b c).power = s.power := by rw [routerOnly_raise s src code a b c]

/-! ## The end of a row -/

/-- A row's events join those of the tick in progress; nothing else changes. -/
@[simp] theorem joinTick_evq (s : State) : (joinTick s).press.evq = [] := rfl

/-- The end of a row touches the Press's event queues and the status word. -/
theorem rowEnd_frame (s : State) : rowEnd s = { s with press := (joinTick s).press, bus := (busStep (joinTick s)).bus } := rfl

@[simp] theorem rowEnd_evq (s : State) : (rowEnd s).press.evq = [] := rfl
@[simp] theorem rowEnd_leaves (s : State) : (rowEnd s).press.leaves = s.press.leaves := rfl
@[simp] theorem rowEnd_cmp (s : State) : (rowEnd s).cmp = s.cmp := rfl
@[simp] theorem rowEnd_time (s : State) : (rowEnd s).time = s.time := rfl
@[simp] theorem rowEnd_nvm (s : State) : (rowEnd s).nvm = s.nvm := rfl
@[simp] theorem rowEnd_fw (s : State) : (rowEnd s).fw = s.fw := rfl
@[simp] theorem rowEnd_power (s : State) : (rowEnd s).power = s.power := rfl
@[simp] theorem rowEnd_pending (s : State) : (rowEnd s).pending = s.pending := rfl

theorem settled_rowEnd (s : State) : Settled (rowEnd s) := fun _ => ⟨rfl, rfl, rfl⟩

/-- A row that is followed by what follows every row leaves the invariant. -/
theorem settled_afterRow (s : State) : Settled (afterRow s) := by
  unfold afterRow; split
  · exact settled_rowEnd _
  · next h => exact fun c => absurd c h

end Sys2Proof.Machine
end

