-- ==== Sys2Proof/Laws/Host.lean ====
section
/-!
SUPPORT. Laws/Host.lean: how a command of the host that is ready comes to run, and how its completion reaches its CQ.
-/

namespace Sys2Proof.Machine

/-! ## Completions (R323, R324) -/

@[simp] theorem syncCqTiles_link (s : State) (q : Nat) : (syncCqTiles s q).link = s.link := by
  unfold syncCqTiles; split <;> simp

/-- A completion queued stands last in the queue of its CQ. -/
theorem pushCompletion_cqHeld (s : State) (c : Completion) :
    (pushCompletion s c).link.cqHeld = Tbl.put s.link.cqHeld (cqOf s c.sq) (Tbl.get [] s.link.cqHeld (cqOf s c.sq) ++ [c]) := by
  simp [pushCompletion]

@[simp] theorem pushCompletion_flights (s : State) (c : Completion) : (pushCompletion s c).link.flights = s.link.flights := by
  simp [pushCompletion]

theorem vatOnly_endRead (s : State) (r : Nat × Nat) : VatOnly s (endRead s r) := by
  unfold endRead; split
  · exact vatOnly_freeRef _ _ _
  · split <;> rfl

theorem vatOnly_armTiles (s : State) (k : Nat) : VatOnly s (armTiles k s) := by
  unfold armTiles
  exact VatOnly.trans _ _ _ (vatOnly_freeRefs _ _ _) <| VatOnly.trans _ _ _
    (foldl_keeps VatOnly VatOnly.refl VatOnly.trans _ _ _ fun s r => vatOnly_fillTile s _ _)
    (foldl_keeps VatOnly VatOnly.refl VatOnly.trans _ _ _ fun s _ => vatOnly_allocTile s _)

theorem vatOnly_settleCapture (s : State) (k : Nat) : VatOnly s (settleCapture k s) := by
  unfold settleCapture; split
  · rfl
  · split
    · exact vatOnly_releaseAll _ _
    · rfl
    · split
      · rfl
      · exact vatOnly_armTiles s k

theorem vatOnly_settleCaptures (s : State) : VatOnly s (settleCaptures s) :=
  foldl_keeps VatOnly VatOnly.refl VatOnly.trans _ _ _ fun s k => vatOnly_settleCapture s k

/-- Withdrawing transfers takes them and their page requests away, and lets their tiles go. -/
theorem dropXfers_vatOnly (s : State) (g : Xfer → Bool) :
    VatOnly (s.onLink fun l => { l with xfers := l.xfers.filter fun x => !g x.2,
                                        prgs := l.prgs.filter fun i => !(prgsOf (l.xfers.filter fun x => g x.2)).contains i }) (dropXfers s g) := by
  unfold dropXfers; dsimp only; split
  · rfl
  · exact VatOnly.trans _ _ _ (foldl_keeps VatOnly VatOnly.refl VatOnly.trans _ _ _ fun s r => vatOnly_endRead s r) (vatOnly_settleCaptures _)

theorem dropXfers_link (s : State) (g : Xfer → Bool) :
    (dropXfers s g).link = { s.link with xfers := s.link.xfers.filter fun x => !g x.2,
                                         prgs := s.link.prgs.filter fun i => !(prgsOf (s.link.xfers.filter fun x => g x.2)).contains i } := by
  rw [dropXfers_vatOnly s g]; rfl

@[simp] theorem dropXfers_cqHeld (s : State) (g : Xfer → Bool) : (dropXfers s g).link.cqHeld = s.link.cqHeld := by rw [dropXfers_link]
@[simp] theorem dropXfers_flights (s : State) (g : Xfer → Bool) : (dropXfers s g).link.flights = s.link.flights := by rw [dropXfers_link]
@[simp] theorem dropXfers_rings (s : State) (g : Xfer → Bool) : (dropXfers s g).link.rings = s.link.rings := by rw [dropXfers_link]
@[simp] theorem dropXfers_press (s : State) (g : Xfer → Bool) : (dropXfers s g).press = s.press := by rw [dropXfers_vatOnly s g]; rfl

theorem freeRefs_link (s : State) (h : Nat) (rs : List (Nat × Nat)) : (freeRefs s h rs).link = s.link := by rw [vatOnly_freeRefs s h rs]

@[simp] theorem dropFlight_cqHeld (s : State) (id : Nat) : (dropFlight s id).link.cqHeld = s.link.cqHeld := by
  simp [dropFlight, freeRefs_link]
@[simp] theorem dropFlight_rings (s : State) (id : Nat) : (dropFlight s id).link.rings = s.link.rings := by
  simp [dropFlight, freeRefs_link]
@[simp] theorem dropFlight_flights (s : State) (id : Nat) : (dropFlight s id).link.flights = s.link.flights.filter (·.id != id) := by
  simp [dropFlight, freeRefs_link]
@[simp] theorem dropFlight_press (s : State) (id : Nat) : (dropFlight s id).press = s.press := by
  unfold dropFlight; rw [dropXfers_press, vatOnly_freeRefs]; rfl

theorem cqOf_congr {s t : State} (h : t.link.rings = s.link.rings) (q : Nat) : cqOf t q = cqOf s q := by unfold cqOf; rw [h]

/-- A command of the host that completes is answered by one entry of its CQ and leaves the in-flight table. -/
theorem finish_answers (s t : State) (op : Op) (sub : Submission) (status : Nat) (handle result : Word32)
    (hc : t.link.cqHeld = s.link.cqHeld) (hr : t.link.rings = s.link.rings) :
    AnswersWith s (finish t (flightFor s op sub) status handle result) sub status handle result := by
  constructor
  · show Tbl.get [] (pushCompletion (dropFlight t s.link.nextFlight) (completionOf sub status handle result)).link.cqHeld _ = _
    rw [pushCompletion_cqHeld, cqOf_congr (s := s) (by simp [hr])]
    simp [completionOf, hc]
  · intro g hg
    have hg : g ∈ (pushCompletion (dropFlight t s.link.nextFlight) (completionOf sub status handle result)).link.flights := hg
    rw [pushCompletion_flights, dropFlight_flights] at hg
    simpa using (List.mem_filter.mp hg).2

theorem doneWith_answers (s t : State) (op : Op) (sub : Submission) (status : Nat) (result : Word32)
    (hc : t.link.cqHeld = s.link.cqHeld) (hr : t.link.rings = s.link.rings) :
    Answers s (doneWith t (flightFor s op sub) status result) sub status result := finish_answers s t op sub status sub.handle result hc hr

/-! ## Starting (R321, R338) -/

theorem foldl_id {σ α : Type} (f : σ → α → σ) (l : List α) (s : σ) (h : ∀ x ∈ l, f s x = s) : l.foldl f s = s := by
  induction l with
  | nil => rfl
  | cons x l ih =>
    rw [List.foldl_cons, h x List.mem_cons_self]
    exact ih fun y hy => h y (List.mem_cons_of_mem _ hy)

theorem accepted_flights (s : State) (op : Op) (sub : Submission) : (accepted s op sub).link.flights = s.link.flights ++ [flightFor s op sub] := rfl

/-- Entering a command in the in-flight table changes no answer of the common checks. -/
theorem commonChecks_accepted (s : State) (op o : Op) (sub x : Submission) : commonChecks (accepted s op sub) o x = commonChecks s o x := rfl

theorem commonChecks_takeTag (s : State) (o : Op) (sub x : Submission) : commonChecks (takeTag s sub) o x = commonChecks s o x := rfl

/-- The in-flight entry of the newest command, where every other has a lower number. -/
theorem flightOf_accepted (s : State) (op : Op) (sub : Submission) (h : ∀ g ∈ s.link.flights, g.id < s.link.nextFlight) :
    flightOf (accepted s op sub) s.link.nextFlight = some (flightFor s op sub) := by
  unfold flightOf
  rw [accepted_flights, List.find?_append]
  have : s.link.flights.find? (fun f => f.id == s.link.nextFlight) = none := by
    rw [List.find?_eq_none]
    intro g hg
    have := h g hg
    simp; omega
  rw [this]
  simp [flightFor]

/-- With no rows to copy the captures take none. -/
theorem copyCaptures_copied {s : State} (h : CapturesCopied s) : copyCaptures s = s := by
  refine foldl_id _ _ _ fun k hk => ?_
  have hk4 : k < 4 := by revert hk; simp; omega
  dsimp only
  rw [if_neg]
  rintro ⟨a, b, -⟩
  exact b (h k hk4 a)

/-- A command that is ready starts at once. -/
theorem pump_accepted {s : State} {op : Op} {sub : Submission} (h : HostReady s op sub) :
    pump (accepted s op sub) = pumpXfers (startFlight (flightFor s op sub) (accepted s op sub)) := by
  obtain ⟨-, hp, -, hf, -, -, -, -, -, -, -, hg⟩ := h
  have hlt : ∀ g ∈ s.link.flights, g.id < s.link.nextFlight := fun g m => (hg g m).2.2
  have hpa : (accepted s op sub).fw.paste = .serving := hp
  unfold pump
  rw [if_pos hpa, accepted_flights, List.map_append, List.foldl_append]
  have rest : (s.link.flights.map (·.id)).foldl pumpOne (accepted s op sub) = accepted s op sub := by
    refine foldl_id _ _ _ fun id m => ?_
    obtain ⟨g0, m0, e0⟩ := List.mem_map.mp m
    have hid : id < s.link.nextFlight := e0 ▸ hlt g0 m0
    unfold pumpOne
    cases hf' : flightOf (accepted s op sub) id with
    | none => rfl
    | some g =>
      have hm := List.mem_of_find?_eq_some hf'
      have he : g.id = id := by simpa using List.find?_some hf'
      rw [accepted_flights] at hm
      rcases List.mem_append.mp hm with m' | m'
      · simp [(hg g m').1]
      · rw [List.mem_singleton.mp m'] at he
        have : s.link.nextFlight = id := he
        omega
  have own : pumpOne (accepted s op sub) s.link.nextFlight = startFlight (flightFor s op sub) (accepted s op sub) := by
    have held : heldBack (accepted s op sub) (flightFor s op sub) = false := by
      unfold heldBack
      rw [accepted_flights, List.any_eq_false]
      intro g m
      rcases List.mem_append.mp m with m | m
      · have := hg g m
        have hw : (flag (flightFor s op sub).sub 0 || g.op == Op.fence || g.phase == Phase.waiting) = false := by
          have h1 : flag (flightFor s op sub).sub 0 = false := hf
          simp [h1, this.1, this.2.1]
        simp [hw]
      · rw [List.mem_singleton.mp m]; simp
    unfold pumpOne
    rw [flightOf_accepted s op sub hlt]
    have hw : (flightFor s op sub).phase = .waiting := rfl
    simp only [hw, held]
    rfl
  rw [rest, List.map_cons, List.map_nil, List.foldl_cons, List.foldl_nil]
  rw [show (flightFor s op sub).id = s.link.nextFlight from rfl, own]

/-- A command that is ready and reads no buffer through bulk tiles does what its opcode says at once. -/
theorem startFlight_ready {s : State} {op : Op} {sub : Submission} (h : HostReady s op sub) (h0 : bulkNeed (flightFor s op sub) = 0) :
    startFlight (flightFor s op sub) (accepted s op sub) = runOp (flightFor s op sub) (accepted s op sub) := by
  obtain ⟨-, -, -, -, -, -, hf, ht, hb, -, -, -⟩ := h
  have hf' : (flightFor s op sub).sub.fault = false := hf
  have ht' : (flightFor s op sub).sub.time = 0 := ht
  have hb' : ¬ ((accepted s op sub).power.brownout = true ∧ waitsForNvm (flightFor s op sub).op = true) := hb
  unfold startFlight
  rw [if_pos (Or.inr h0)]
  unfold beginFlight
  rw [if_neg (by simp [hf']), if_neg hb', if_neg (by simp [ht'])]
  rfl

/-- A command of the host that is ready: what its row answers. -/
theorem hostCommand_ready {s : State} {op : Op} {sub : Submission} (h : HostReady s op sub) :
    hostCommand op sub s = .next (serveTail (startFlight (flightFor s op sub) (accepted s op sub))) := by
  have h' := h
  obtain ⟨hw, hp, hk, -, ht, hc, -, -, -, -, hx, -⟩ := h
  have hsq : ¬ 16 ≤ sub.sq := by
    simp only [Submission.wf, decide_eq_true_eq] at hw; omega
  have hka : clocked (accepted s op sub) = true := hk
  have hxa : CapturesCopied (accepted s op sub) := hx
  unfold hostCommand
  rw [if_neg (by simp [hsq, hp, hk])]
  have hpc : parseCommand s op sub = accepted s op sub := by
    unfold parseCommand
    rw [ht]
    simp only [Bool.false_eq_true, if_false]
    rw [commonChecks_takeTag, hc]
    rfl
  rw [hpc]
  unfold afterRow
  rw [if_pos hka, copyCaptures_copied hxa, pump_accepted h']
  rfl

/-- The state in which a command starts has the completions and rings of the one before. -/
@[simp] theorem accepted_cqHeld (s : State) (op : Op) (sub : Submission) : (accepted s op sub).link.cqHeld = s.link.cqHeld := rfl
@[simp] theorem accepted_rings (s : State) (op : Op) (sub : Submission) : (accepted s op sub).link.rings = s.link.rings := rfl
@[simp] theorem accepted_press (s : State) (op : Op) (sub : Submission) : (accepted s op sub).press = s.press := rfl
@[simp] theorem accepted_meas (s : State) (op : Op) (sub : Submission) : (accepted s op sub).meas = s.meas := rfl
@[simp] theorem accepted_time (s : State) (op : Op) (sub : Submission) : (accepted s op sub).time = s.time := rfl

end Sys2Proof.Machine
end

