-- ==== Sys2Proof/Laws/Leaves.lean ====
section
/-!
SUPPORT. Laws/Leaves.lean: what writing a leaf, or a unit through its leaves, does to each leaf.
-/

namespace Sys2Proof.Machine

variable (s : State) (u v : Nat) (l : Leaf)

theorem leafOf_setLeaf : leafOf (setLeaf s u l) v = if v = u then l else leafOf s v := by
  unfold leafOf setLeaf
  simp only [State.onPress_press]
  exact Tbl.get_put _ _ _ _ _

theorem leafOf_onLeaf (f : Leaf → Leaf) : leafOf (onLeaf s u f) v = if v = u then f (leafOf s u) else leafOf s v := leafOf_setLeaf s u v _

@[simp] theorem leafOf_setLeaf_same : leafOf (setLeaf s u l) u = l := by simp [leafOf_setLeaf]

@[simp] theorem leafOf_onLeaf_same (f : Leaf → Leaf) : leafOf (onLeaf s u f) u = f (leafOf s u) := by simp [leafOf_onLeaf]

@[simp] theorem leafOf_raiseP (src code : Nat) (a b c : Word32) : leafOf (raiseP s src code a b c) v = leafOf s v := rfl

@[simp] theorem raiseP_evq (src code : Nat) (a b c : Word32) :
    (raiseP s src code a b c).press.evq = s.press.evq ++ [pressEvent s src code a b c] := rfl

@[simp] theorem onLeaf_evq (f : Leaf → Leaf) : (onLeaf s u f).press.evq = s.press.evq := rfl

/-! ## The members of a unit depend on the hoops alone -/

@[simp] theorem parallelOf_setLeaf : parallelOf (setLeaf s u l) v = parallelOf s v := rfl
@[simp] theorem parallelOf_onLeaf (f : Leaf → Leaf) : parallelOf (onLeaf s u f) v = parallelOf s v := rfl
@[simp] theorem parallelOf_raiseP (src code : Nat) (a b c : Word32) : parallelOf (raiseP s src code a b c) v = parallelOf s v := rfl

theorem parallelOf_congr {s t : State} (h : t.press.hoops = s.press.hoops) (u : Nat) : parallelOf t u = parallelOf s u := by
  unfold parallelOf; rw [h]

theorem groupOf_congr {s t : State} (h : t.press.hoops = s.press.hoops) (u : Nat) : groupOf t u = groupOf s u := by
  unfold groupOf; rw [parallelOf_congr h]

theorem slotOf_congr {s t : State} (h : t.press.hoops = s.press.hoops) (u : Nat) : slotOf t u = slotOf s u := by
  unfold slotOf; rw [parallelOf_congr h]

/-! ## Only leaves and events differ -/

theorem LeavesOnly.refl : LeavesOnly s s := rfl

theorem LeavesOnly.trans {a b c : State} (h : LeavesOnly a b) (k : LeavesOnly b c) : LeavesOnly a c := by
  unfold LeavesOnly at *; rw [k, h]

theorem LeavesOnly.hoops {a b : State} (h : LeavesOnly a b) : b.press.hoops = a.press.hoops := by rw [h]

theorem leavesOnly_setLeaf : LeavesOnly s (setLeaf s u l) := rfl
theorem leavesOnly_onLeaf (f : Leaf → Leaf) : LeavesOnly s (onLeaf s u f) := rfl
theorem leavesOnly_raiseP (src code : Nat) (a b c : Word32) : LeavesOnly s (raiseP s src code a b c) := rfl

/-- Writing each of some leaves in turn, each by a function of what it held. -/
theorem leafOf_foldl (f : State → Nat → State) (g : Nat → Leaf → Leaf) (hf : ∀ s m x, leafOf (f s m) x = if x = m then g m (leafOf s m) else leafOf s x)
    (idem : ∀ m l, g m (g m l) = g m l) (ms : List Nat) (s : State) (x : Nat) :
    leafOf (ms.foldl f s) x = if x ∈ ms then g x (leafOf s x) else leafOf s x := by
  induction ms generalizing s with
  | nil => simp
  | cons m ms ih =>
    rw [List.foldl_cons, ih, hf]
    by_cases h : x = m
    · subst h; simp [idem]
    · simp [h]

/-- What a unit's write does to one of its members. -/
def memberWrite (slot : Nat) (v : Leaf) (m : Nat) (l : Leaf) : Leaf :=
  if m = slot then (if l.st = .retired then { v with st := .retired, sub := 0, gate := .holdOff, diag := l.diag } else v)
  else if l.st = .retired then l else shareLeaf v l

theorem putv_solo {s : State} {u : Nat} (h : parallelOf s u = none) (v : Leaf) : putv s u v = setLeaf s u v := by
  unfold putv; rw [h]

theorem vleaf_solo {s : State} {u : Nat} (h : parallelOf s u = none) : vleaf s u = leafOf s u := by
  unfold vleaf; rw [h]

theorem groupOf_solo {s : State} {u : Nat} (h : parallelOf s u = none) : groupOf s u = [u] := by
  unfold groupOf; rw [h]

theorem slotOf_solo {s : State} {u : Nat} (h : parallelOf s u = none) : slotOf s u = u := by
  unfold slotOf; rw [h]

theorem leavesOnly_putv : LeavesOnly s (putv s u l) ∧ (putv s u l).press.evq = s.press.evq := by
  unfold putv
  split
  · exact ⟨rfl, rfl⟩
  · refine foldl_keeps (fun a b => LeavesOnly a b ∧ b.press.evq = a.press.evq) (fun s => ⟨rfl, rfl⟩)
      (fun a b c h k => ⟨h.1.trans k.1, k.2.trans h.2⟩) _ _ _ fun s m => ?_
    dsimp only
    split
    · split <;> exact ⟨rfl, rfl⟩
    · split <;> exact ⟨rfl, rfl⟩

@[simp] theorem putv_evq : (putv s u l).press.evq = s.press.evq := (leavesOnly_putv s u l).2
@[simp] theorem putv_hoops : (putv s u l).press.hoops = s.press.hoops := (leavesOnly_putv s u l).1.hoops

/-- Every leaf after a write to a parallel hoop. -/
theorem leafOf_putv_hoop {s : State} {u n : Nat} {h : Hoop} (hp : parallelOf s u = some (n, h)) (v : Leaf) (hv : v.st ≠ .retired) (x : Nat) :
    leafOf (putv s u v) x = if x ∈ h.members then memberWrite h.slot v x (leafOf s x) else leafOf s x := by
  unfold putv
  rw [hp]
  refine leafOf_foldl _ (memberWrite h.slot v) (fun s m x => ?_) (fun m l => ?_) _ _ _
  · dsimp only
    unfold memberWrite
    split
    · split
      · rw [leafOf_setLeaf]
      · rw [leafOf_setLeaf]
    · split
      · by_cases hx : x = m <;> simp [hx]
      · rw [leafOf_setLeaf]
  · unfold memberWrite
    by_cases hm : m = h.slot
    · simp only [hm, if_true]
      by_cases hl : l.st = .retired <;> simp [hl, hv]
    · simp only [hm, if_false]
      by_cases hl : l.st = .retired
      · simp [hl]
      · simp [hl, shareLeaf, hv]

/-- A write to a unit leaves every other leaf. -/
theorem leafOf_putv_other (h : v ∉ groupOf s u) : leafOf (putv s u l) v = leafOf s v := by
  unfold groupOf at h
  unfold putv
  revert h
  cases parallelOf s u with
  | none => intro h; have : v ≠ u := by simpa using h
            simp [leafOf_setLeaf, this]
  | some p =>
    obtain ⟨n, h⟩ := p
    intro hv
    dsimp only at hv ⊢
    have : ∀ (ms : List Nat) (t : State), v ∉ ms → leafOf (ms.foldl (fun s m =>
        let l' := leafOf s m
        if m = h.slot then (if l'.st = .retired then setLeaf s m { l with st := .retired, sub := 0, gate := .holdOff, diag := l'.diag } else setLeaf s m l)
        else if l'.st = .retired then s else setLeaf s m (shareLeaf l l')) t) v = leafOf t v := by
      intro ms
      induction ms with
      | nil => intro t _; rfl
      | cons m ms ih =>
        intro t hm
        simp only [List.mem_cons, not_or] at hm
        rw [List.foldl_cons, ih _ hm.2]
        dsimp only
        split
        · split <;> simp [leafOf_setLeaf, hm.1]
        · split
          · rfl
          · simp [leafOf_setLeaf, hm.1]
    exact this _ _ hv

/-! ## The unit as protection sees it -/

/-- Some member of a parallel hoop is not retired, where the hoop is seen in a state other than RETIRED. -/
theorem live_of_vleaf {s : State} {u n : Nat} {h : Hoop} (hp : parallelOf s u = some (n, h)) (hv : (vleaf s u).st ≠ .retired) :
    ∃ m, (h.members.filter fun m => (leafOf s m).st != .retired).head? = some m := by
  unfold vleaf at hv
  rw [hp] at hv
  dsimp only at hv
  split at hv
  · next m hm => exact ⟨m, hm⟩
  · simp at hv

/-- The diagnostics of a retired slot channel stay its own (R46, R168). -/
def keepsDiag (s : State) (u : Nat) (v : Leaf) : Leaf :=
  if (leafOf s (slotOf s u)).st = .retired then { v with diag := (leafOf s (slotOf s u)).diag } else v

/-- A unit that is not retired, after it has been written, is seen as it was written. -/
theorem vleaf_putv {s : State} {u : Nat} (hu : (vleaf s u).st ≠ .retired) (hs : ∀ n h, parallelOf s u = some (n, h) → h.slot ∈ h.members)
    (v : Leaf) (hv : v.st ≠ .retired) : vleaf (putv s u v) u = keepsDiag s u v := by
  cases hp : parallelOf s u with
  | none =>
    rw [vleaf_solo hp] at hu
    rw [putv_solo hp, vleaf_solo (by simpa using hp)]
    simp [keepsDiag, slotOf_solo hp, hu]
  | some p =>
    obtain ⟨n, h⟩ := p
    obtain ⟨m, hm⟩ := live_of_vleaf hp hu
    have hslot := hs n h hp
    have hp' : parallelOf (putv s u v) u = some (n, h) := by rw [parallelOf_congr (putv_hoops s u v), hp]
    have hmem : m ∈ h.members ∧ (leafOf s m).st ≠ .retired := by
      have := List.mem_of_mem_head? (by rw [hm]; exact Option.mem_some.mpr rfl)
      simpa using List.mem_filter.mp this
    have hleaf := leafOf_putv_hoop hp v hv
    have hst : ∀ x ∈ h.members, ((leafOf (putv s u v) x).st != .retired) = ((leafOf s x).st != .retired) := by
      intro x hx
      rw [hleaf, if_pos hx, Bool.eq_iff_iff, bne_iff_ne, bne_iff_ne]
      unfold memberWrite
      by_cases e : x = h.slot
      · subst e; simp only [if_true]; by_cases r : (leafOf s h.slot).st = .retired <;> simp [r, hv]
      · simp only [e, if_false]; by_cases r : (leafOf s x).st = .retired <;> simp [r, hv, shareLeaf]
    have hf : (h.members.filter fun x => (leafOf (putv s u v) x).st != .retired) = h.members.filter fun x => (leafOf s x).st != .retired :=
      List.filter_congr hst
    have hm1 := hleaf m
    rw [if_pos hmem.1] at hm1
    have hs1 := hleaf h.slot
    rw [if_pos hslot] at hs1
    unfold vleaf
    rw [hp']
    dsimp only
    rw [hf, hm]
    dsimp only
    rw [hm1, hs1]
    have hk : slotOf s u = h.slot := by unfold slotOf; rw [hp]
    unfold keepsDiag
    rw [hk]
    unfold memberWrite
    by_cases e : m = h.slot
    · subst e; simp [hmem.2]
    · simp only [e, if_false, if_true, hmem.2]
      by_cases r : (leafOf s h.slot).st = .retired
      · simp [r, shareLeaf]
      · simp [r, shareLeaf]

/-- A parallel hoop holds every channel it is found by. -/
theorem mem_of_parallelOf {s : State} {u n : Nat} {h : Hoop} (hp : parallelOf s u = some (n, h)) : u ∈ h.members := by
  have := List.find?_some hp
  simp at this
  exact this.2

/-- The slot channel of a leading leaf is one of its hoop's members. -/
theorem Leads.slot_mem {s : State} {u : Nat} (h : Leads s u) (n : Nat) (x : Hoop) (hp : parallelOf s u = some (n, x)) : x.slot ∈ x.members := by
  have hk := h.2.1
  unfold slotOf at hk
  rw [hp] at hk
  have hk : x.slot = u := hk
  rw [hk]
  exact mem_of_parallelOf hp

theorem Solo.leads {s : State} {u : Nat} (h : Solo s u) : Leads s u := ⟨h.1, slotOf_solo h.2, fun _ => h.2⟩

/-- A change of a leading unit that is not retired, as protection sees it. -/
theorem vleaf_onV {s : State} {u : Nat} (h : Leads s u) (hu : (vleaf s u).st ≠ .retired) (f : Leaf → Leaf) (hv : (f (vleaf s u)).st ≠ .retired) :
    vleaf (onV s u f) u = keepsDiag s u (f (vleaf s u)) := vleaf_putv hu h.slot_mem _ hv

@[simp] theorem keepsDiag_st (v : Leaf) : (keepsDiag s u v).st = v.st := by unfold keepsDiag; split <;> rfl
@[simp] theorem keepsDiag_sub (v : Leaf) : (keepsDiag s u v).sub = v.sub := by unfold keepsDiag; split <;> rfl
@[simp] theorem keepsDiag_gate (v : Leaf) : (keepsDiag s u v).gate = v.gate := by unfold keepsDiag; split <;> rfl
@[simp] theorem keepsDiag_pg (v : Leaf) : (keepsDiag s u v).pg = v.pg := by unfold keepsDiag; split <;> rfl
@[simp] theorem keepsDiag_cause (v : Leaf) : (keepsDiag s u v).cause = v.cause := by unfold keepsDiag; split <;> rfl
@[simp] theorem keepsDiag_mask (v : Leaf) : (keepsDiag s u v).mask = v.mask := by unfold keepsDiag; split <;> rfl
@[simp] theorem keepsDiag_retries (v : Leaf) : (keepsDiag s u v).retries = v.retries := by unfold keepsDiag; split <;> rfl
@[simp] theorem keepsDiag_retryUs (v : Leaf) : (keepsDiag s u v).retryUs = v.retryUs := by unfold keepsDiag; split <;> rfl
@[simp] theorem keepsDiag_retryCancelled (v : Leaf) : (keepsDiag s u v).retryCancelled = v.retryCancelled := by unfold keepsDiag; split <;> rfl
@[simp] theorem keepsDiag_cleanT (v : Leaf) : (keepsDiag s u v).cleanT = v.cleanT := by unfold keepsDiag; split <;> rfl
@[simp] theorem keepsDiag_faultT (v : Leaf) : (keepsDiag s u v).faultT = v.faultT := by unfold keepsDiag; split <;> rfl
@[simp] theorem keepsDiag_ended (v : Leaf) : (keepsDiag s u v).ended = v.ended := by unfold keepsDiag; split <;> rfl
@[simp] theorem keepsDiag_ramp (v : Leaf) : (keepsDiag s u v).ramp = v.ramp := by unfold keepsDiag; split <;> rfl
@[simp] theorem keepsDiag_led (v : Leaf) : (keepsDiag s u v).led = v.led := by unfold keepsDiag; split <;> rfl
@[simp] theorem keepsDiag_pwm (v : Leaf) : (keepsDiag s u v).pwm = v.pwm := by unfold keepsDiag; split <;> rfl

/-! ## Turn-offs: what the loss of a feed and the end of a release touch -/

/-- A row about one leaf, while the Press runs. -/
theorem leafRow_does {u : Nat} {op : State → State} {s : State} (hc : clocked s = true) (hu : u < 71) :
    leafRow u op s = .next (afterRow (op s)) := by
  unfold leafRow pressRow; rw [if_pos ⟨by simpa using hu, by simp [pressRuns, hc]⟩]

theorem conducting_ne_retired {x : UState} (h : x.conducting = true) : x ≠ .retired := by rintro rfl; simp [UState.conducting] at h

theorem PressOnly.refl (s) : PressOnly s s := rfl
theorem PressOnly.trans {a b c : State} (h : PressOnly a b) (k : PressOnly b c) : PressOnly a c := by unfold PressOnly at *; rw [k, h]
theorem PressOnly.hoops {a b : State} (h : PressOnly a b) : b.press.hoops = a.press.hoops := by rw [h]
theorem PressOnly.byRule {a b : State} (h : PressOnly a b) : b.press.byRule = a.press.byRule := by rw [h]
theorem LeavesOnly.pressOnly {a b : State} (h : LeavesOnly a b) : PressOnly a b := by unfold LeavesOnly PressOnly at *; rw [h]
theorem pressOnly_raiseP (s : State) (src code : Nat) (a b c : Word32) : PressOnly s (raiseP s src code a b c) := rfl
theorem pressOnly_putv (s : State) (u : Nat) (l : Leaf) : PressOnly s (putv s u l) := (leavesOnly_putv s u l).1.pressOnly
theorem pressOnly_onV (s : State) (u : Nat) (f : Leaf → Leaf) : PressOnly s (onV s u f) := pressOnly_putv _ _ _
theorem pressOnly_holdOffEnds (s : State) (u : Nat) : PressOnly s (holdOffEnds s u) := by unfold holdOffEnds; split <;> rfl
theorem leavesOnly_shedFire (s : State) (k : Nat) : LeavesOnly s (shedFire s k) ∧ (shedFire s k).press.evq = s.press.evq := by
  unfold shedFire; split
  · exact ⟨rfl, rfl⟩
  · refine foldl_keeps (fun a b => LeavesOnly a b ∧ b.press.evq = a.press.evq) (fun s => ⟨rfl, rfl⟩)
      (fun a b c h k => ⟨h.1.trans k.1, k.2.trans h.2⟩) _ _ _ fun s m => ?_
    split <;> exact ⟨rfl, rfl⟩
theorem leavesOnly_loseFeed (s : State) (k : Nat) : LeavesOnly s (loseFeed s k) ∧ (loseFeed s k).press.evq = s.press.evq := by
  unfold loseFeed; split
  · exact ⟨rfl, rfl⟩
  · have := leavesOnly_shedFire (onLeaf s k fun l => { l with lost := true, recoverUs := 0 }) (k - 64)
    exact ⟨LeavesOnly.trans (by rfl) this.1, this.2⟩
theorem leavesOnly_feedProtective (s : State) (u : Nat) : LeavesOnly s (feedProtective s u) ∧ (feedProtective s u).press.evq = s.press.evq := by
  unfold feedProtective feedLatched; split
  · split
    · exact leavesOnly_loseFeed _ _
    · exact ⟨rfl, rfl⟩
  · exact ⟨rfl, rfl⟩


/-- What the loss of a feed, and the shed it fires, may change of a leaf: its gate, which sinks FAST, its OFF latch, its loss condition (R203, R205). -/
def ShedEq (k : Kind) (a b : Leaf) : Prop :=
  ∃ g, b = { a with gate := g, offLatch := b.offLatch, offShed := b.offShed, shedBy := b.shedBy, lost := b.lost, recoverUs := b.recoverUs } ∧
    (g = a.gate ∨ g = sinkMode k a.env.clamp true a.gate)
theorem sink_idem (k : Kind) (c : Bool) (g : GateMode) : sinkMode k c true (sinkMode k c true g) = sinkMode k c true g := by
  cases g <;> cases k <;> cases c <;> simp [sinkMode]
theorem ShedEq.refl (k a) : ShedEq k a a := ⟨a.gate, rfl, .inl rfl⟩
theorem ShedEq.trans {k} {a b c : Leaf} (h : ShedEq k a b) (j : ShedEq k b c) : ShedEq k a c := by
  obtain ⟨g, e, o⟩ := h
  obtain ⟨g', e', o'⟩ := j
  refine ⟨g', ?_, ?_⟩
  · rw [e', e]
  · have hb : b.gate = g := by rw [e]
    have hk : b.env = a.env := by rw [e]
    rw [hb, hk] at o'
    rcases o with o | o <;> rcases o' with o' | o'
    · left; rw [o', o]
    · right; rw [o', o]
    · right; rw [o', o]
    · right; rw [o', o, sink_idem]
theorem shedEq_shedFire (s : State) (k v : Nat) : ShedEq (leafKind v) (leafOf s v) (leafOf (shedFire s k) v) := by
  unfold shedFire; split
  · exact ShedEq.refl _ _
  · refine foldl_keeps (fun a b => ShedEq (leafKind v) (leafOf a v) (leafOf b v)) (fun s => ShedEq.refl _ _) (fun a b c h k => h.trans k) _ _ _ fun s m => ?_
    split
    · rw [leafOf_onLeaf]; split
      · next h => subst h; exact ⟨_, rfl, .inr rfl⟩
      · exact ShedEq.refl _ _
    · exact ShedEq.refl _ _
theorem shedEq_feedProtective (s : State) (u v : Nat) : ShedEq (leafKind v) (leafOf s v) (leafOf (feedProtective s u) v) := by
  unfold feedProtective feedLatched loseFeed
  split
  · split
    · split
      · exact ShedEq.refl _ _
      · refine ShedEq.trans ?_ (shedEq_shedFire _ _ _)
        rw [leafOf_onLeaf]; split
        · next h => subst h; exact ⟨_, rfl, .inl rfl⟩
        · exact ShedEq.refl _ _
    · exact ShedEq.refl _ _
  · exact ShedEq.refl _ _

theorem feedProtective_not {s : State} {u : Nat} (h : leafKind u ≠ .feed) : feedProtective s u = s := by unfold feedProtective; simp [h]
theorem kind_feed {u : Nat} (h : leafKind u = .feed) : 64 ≤ u := by
  unfold leafKind at h
  rcases Nat.lt_or_ge u 64 with c | c
  · rw [if_pos c] at h; cases h
  · exact c
theorem kind_channel {u : Nat} (h : u < 64) : leafKind u = .channel := by unfold leafKind; simp [h]

theorem vleaf_congr {s t : State} {u : Nat} (hh : t.press.hoops = s.press.hoops) (hl : ∀ v, leafOf t v = leafOf s v) : vleaf t u = vleaf s u := by
  unfold vleaf; rw [parallelOf_congr hh]; simp only [hl]

theorem vleaf_raiseP (s : State) (a b u : Nat) (x y z : Word32) : vleaf (raiseP s a b x y z) u = vleaf s u := vleaf_congr rfl (fun _ => rfl)
theorem vleaf_holdOffEnds (s : State) (u v : Nat) : vleaf (holdOffEnds s u) v = vleaf s v := by
  unfold holdOffEnds; split
  · exact vleaf_congr rfl (fun _ => rfl)
  · rfl
theorem leafOf_holdOffEnds (s : State) (u v : Nat) : leafOf (holdOffEnds s u) v = leafOf s v := by
  unfold holdOffEnds; split <;> rfl

theorem Leads.congr {s t : State} {u : Nat} (hh : t.press.hoops = s.press.hoops) (h : Leads s u) : Leads t u := by
  unfold Leads at *; rw [slotOf_congr hh, parallelOf_congr hh]; exact h

@[simp] theorem tail_st (l : Leaf) : (tailEpisode l).st = l.st := by unfold tailEpisode openEpisode; repeat' (first | rfl | split)
@[simp] theorem tail_env (l : Leaf) : (tailEpisode l).env = l.env := by unfold tailEpisode openEpisode; repeat' (first | rfl | split)
@[simp] theorem tail_gate (l : Leaf) : (tailEpisode l).gate = l.gate := by unfold tailEpisode openEpisode; repeat' (first | rfl | split)
@[simp] theorem tail_retries (l : Leaf) : (tailEpisode l).retries = l.retries := by unfold tailEpisode openEpisode; repeat' (first | rfl | split)

theorem vleaf_feedProtective (s : State) (u : Nat) (h : Leads s u) : ShedEq (leafKind u) (vleaf s u) (vleaf (feedProtective s u) u) := by
  by_cases hk : leafKind u = .feed
  · have hp := h.2.2 (kind_feed hk)
    rw [vleaf_solo hp, vleaf_solo (by rw [parallelOf_congr (leavesOnly_feedProtective s u).1.hoops]; exact hp)]
    exact shedEq_feedProtective s u u
  · rw [feedProtective_not hk]; exact ShedEq.refl _ _

theorem eventUnit_congr {s t : State} (h : t.press.hoops = s.press.hoops) (u : Nat) : eventUnit t u = eventUnit s u := by
  unfold eventUnit; rw [parallelOf_congr h]

theorem soft_congr {s t : State} {u id : Nat} (h : PressOnly s t) (hl : ∀ v, (leafOf t v).soft = (leafOf s v).soft ∧ (leafOf t v).env = (leafOf s v).env) : soft t u id = soft s u id := by
  have hf : t.fw = s.fw := by rw [h]
  unfold soft softI softTable fieldDefault feedParams regParams holdParams
  simp only [parallelOf_congr h.hoops, slotOf_congr h.hoops, hl, hf]

/-! ## Frames of one unit and of one leaf -/

theorem within_onV {s : State} {u : Nat} (f : Leaf → Leaf) : Within s (onV s u f) u [] := by
  refine ⟨(leavesOnly_putv _ _ _).1, ?_, fun v hv => leafOf_putv_other _ _ _ _ hv⟩
  unfold onV; simp

theorem Within.raiseP {s t : State} {u : Nat} {es : List RawEvent} (h : Within s t u es) (a b : Nat) (x y z : Word32) :
    Within s (raiseP t a b x y z) u (es ++ [pressEvent s a b x y z]) := by
  refine ⟨h.1.trans (leavesOnly_raiseP _ _ _ _ _ _), ?_, h.2.2⟩
  rw [raiseP_evq, h.2.1]
  have : t.press.byRule = s.press.byRule := by rw [h.1]
  simp [pressEvent, this]

theorem Within.onV {s t : State} {u : Nat} {es : List RawEvent} (h : Within s t u es) (f : Leaf → Leaf) : Within s (onV t u f) u es := by
  refine ⟨h.1.trans (leavesOnly_putv _ _ _).1, ?_, fun v hv => ?_⟩
  · unfold Machine.onV; rw [putv_evq]; exact h.2.1
  · have : v ∉ groupOf t u := by rw [groupOf_congr h.1.hoops]; exact hv
    rw [← h.2.2 v hv]; exact leafOf_putv_other _ _ _ _ this

theorem Within.refl (s : State) (u : Nat) : Within s s u [] := ⟨rfl, by simp, fun _ _ => rfl⟩

theorem channelRow_does {u : Nat} {op : State → State} {s : State} (hc : clocked s = true) (hu : u < 64) :
    channelRow u op s = .next (afterRow (op s)) := by
  unfold channelRow pressRow; rw [if_pos ⟨by simpa using hu, by simp [pressRuns, hc]⟩]
theorem pumpRow_does {u : Nat} {op : State → State} {s : State} (hc : clocked s = true) (hu : u < 4) :
    pumpRow u op s = .next (afterRow (op s)) := by
  unfold pumpRow pressRow; rw [if_pos ⟨by simpa using hu, by simp [pressRuns, hc]⟩]
theorem LeafOnly.refl (s : State) (u : Nat) : LeafOnly s s u [] := ⟨rfl, by simp, fun _ _ => rfl⟩
theorem LeafOnly.onLeaf {s t : State} {u : Nat} {es : List RawEvent} (h : LeafOnly s t u es) (f : Leaf → Leaf) : LeafOnly s (onLeaf t u f) u es :=
  ⟨h.1.trans (leavesOnly_onLeaf _ _ _), h.2.1, fun v hv => by rw [leafOf_onLeaf, if_neg hv]; exact h.2.2 v hv⟩
theorem LeafOnly.raiseP {s t : State} {u : Nat} {es : List RawEvent} (h : LeafOnly s t u es) (a b : Nat) (x y z : Word32) :
    LeafOnly s (raiseP t a b x y z) u (es ++ [pressEvent s a b x y z]) := by
  refine ⟨h.1.trans (leavesOnly_raiseP _ _ _ _ _ _), ?_, h.2.2⟩
  rw [raiseP_evq, h.2.1]
  have : t.press.byRule = s.press.byRule := by rw [h.1]
  simp [pressEvent, this]

theorem soft_onLeaf (s : State) (u v id : Nat) (f : Leaf → Leaf) (hf : ∀ l, (f l).soft = l.soft ∧ (f l).env = l.env) : soft (onLeaf s u f) v id = soft s v id := by
  refine soft_congr rfl fun x => ?_
  rw [leafOf_onLeaf]; split
  · next h => subst h; exact hf _
  · exact ⟨rfl, rfl⟩

end Sys2Proof.Machine
end

