-- ==== Sys2Proof/Tests/Slice0.lean ====
section
/-!
SUPPORT. Tests/Slice0.lean: the tests: a term that each well-formedness check refuses, small tests of single commands, and for every statement that has
hypotheses states and operands that meet them, clause by clause.
-/

open Sys2Proof Sys2Proof.Machine

namespace Sys2Proof.Tests

set_option Elab.async false

/-! ## States for the tests -/

/-- The device at work in RUN, some time after its start: Rind and Paste serve, the link is up. -/
def work : State :=
  { State.reset with
    power := { State.reset.power with booting := false, mode := .run, opsec := 10000 }
    fw := { State.reset.fw with rind := .running, paste := .serving }
    link := { State.reset.link with up := true }
    time := { State.reset.time with gtc := 4000000000000 } }

/-- The device at work with one leaf changed. -/
def leafAt (u : Nat) (f : Leaf → Leaf) : State := onLeaf work u f

/-- The device at work with the ring of an index enabled. -/
def ringAt (i : Nat) (r : Ring) (s : State := work) : State := s.onLink fun l => { l with rings := Tbl.put l.rings i r }

/-- A ring of 16 entries in use. -/
def ring16 : Ring := { cfg := { entries := 16 }, up := true }

/-- A submission on ring 0. -/
def subm (handle : Word32 := 0) (args : List Byte := []) (flags : Byte := 0) (buf : List Byte := []) (len : Nat := 0) : Submission :=
  { sq := 0, flags := flags, tag := 5, gen := 0, handle := handle, time := 0, bufAddr := 4096, bufLen := len,
    args := args ++ List.replicate (36 - args.length) 0, data := buf }

/-- The handle of a unit number whose generation has not advanced. -/
def unitHandle (u : Nat) : Word32 := mkHandle 0 u 1

/-- A command of the host in flight. -/
def inFlight (op : Op) (sub : Submission) (ph : Phase) (s : State := work) : State :=
  s.onLink fun l => { l with flights := [{ id := 0, origin := .host, op := op, sub := sub, phase := ph }], nextFlight := 1 }

/-- A group hoop at number 130 over channels 3 and 4. -/
def groupHoop : Hoop := { parallel := false, members := [3, 4], table := [⟨3, 0, true, 0, 100⟩, ⟨4, 1, false, 0, 100⟩] }

/-- The device at work with hoops. -/
def hoopsAt (hs : List (Nat × Hoop)) (s : State := work) : State := s.onPress fun p => { p with hoops := hs }

/-- A parallel hoop at number 140 over channels 8 and 9. -/
def parallelHoop : Hoop := { parallel := true, members := [8, 9], table := [], slot := 8 }

/-- A usable sample of a node, taken now. -/
def sampleAt (n : Nat) (v : Int) (s : State := work) : State :=
  onNode s n fun x => { x with value := v, quality := .valid, at_ := s.time.gtc, held := some (v, s.time.gtc) }

/-- The device at work with both measurement references on and ready. -/
def measuring : State := onBank (onBank work 0 fun b => { b with refOn := true, refReady := true }) 1 fun b => { b with refOn := true, refReady := true }

/-- A waiting edit with its command in flight. -/
def editing (op : Op) (sub : Submission) (e : Edit) (hs : List Word32) (s : State := work) : State :=
  (inFlight op sub .swap s).onPress fun p => { p with edits := [{ flight := 0, edit := e, handles := hs }] }

/-- The pins and memories that BOOT finds. -/
def bootPins : BootInputs := { clkRef := false, refValid := false, strap0 := 0, strap1 := 7, addrCode := 15, caveMode := 0, pasteRuns := true, elapsed := none }

/-- A wake by the timer after a thousand periods of the always-on clock. -/
def wakeTimer : WakeInputs := { code := 2, detail := 0, periods := 1000, trips := [], limits := [] }

/-- A record of the Cave. -/
def caveRec : CaveRec := { seq := 1, source := 70, code := 0x0101, opsec := 0, subsec := 0, cycle := 0, p0 := 0, p1 := 0, p2 := 0, rept := 0 }

/-- A sequence over one node of bank 0. -/
def seq1 (burst : Option (Nat × Nat × Bool)) : Sequence :=
  { bank := 0, filter := 0, trigKind := 0, spacing := 0, trigDelay := 0, trigArg := 0, nodes := [5], burst := burst }

/-- An event routed to a ring. -/
def event0 : Event := { gtc := 0, source := 70, code := 0x0101, p0 := 0, p1 := 0, p2 := 0, unsync := false, lost := 0 }

/-- The device at work with a profile of defaults in force. -/
def profiled (s : State := work) : State := s.onFw fun f => { f with profile := some (parseProfile []) }

/-- A link trained at 8 GT/s with two lanes. -/
def linkGen3 : LinkInputs := { speed := 3, width := 2, ats := true, pri := true, ptm := true }

/-! ## Well-formedness: a term that each check refuses -/

def noTick : TickInputs := ⟨[], [], [], [], [0, 0, 0, 0], []⟩

theorem test_wf_refuses_submissions :
    ([{ subm with sq := 16 }, { subm with tag := 4096 }, { subm with gen := 16 }, { subm with time := 18446744073709551616 },
      { subm with bufAddr := 18446744073709551616 }, { subm with bufLen := 4294967296 }, { subm with args := [] }].all fun d => !(Instr.nop d).wf) = true := by
  decide +kernel

theorem test_wf_refuses_inputs :
    ([Instr.protectionTick { noTick with cells := [(344, 0)] }, .protectionTick { noTick with fwd := [(4, 0)] }, .protectionTick { noTick with loops := [(71, true)] },
      .protectionTick { noTick with srcLimit := [64] }, .protectionTick { noTick with pumps := [] }, .protectionTick { noTick with mated := [16] },
      .wake { wakeTimer with code := 10 }, .wake { wakeTimer with detail := 1 }, .wake { wakeTimer with code := 4, detail := 32 },
      .wake { wakeTimer with code := 5, detail := 71 }, .wake { wakeTimer with code := 8, detail := 16 }, .boot { bootPins with strap0 := 8 },
      .boot { bootPins with addrCode := 16 }, .boot { bootPins with caveMode := 3 }, .boot { bootPins with mated := [(16, 0)] }, .wake { wakeTimer with cells := [(344, 0)] },
      .wake { wakeTimer with refs := [2] }, .linkUp { linkGen3 with speed := 4 }, .linkUp { linkGen3 with width := 3 },
      .conversion ⟨2, 0, 0, 0, .standing⟩, .conversion ⟨0, 11, 0, 0, .standing⟩, .conversion ⟨0, 0, 243, 0, .standing⟩, .spareRotation 0 0 []].all
        fun i => !i.wf) = true := by decide +kernel

theorem test_wf_refuses_numbers :
    (([71].flatMap fun u => [Instr.preflight u, .rampDone u, .faultTimerExpiry u, .retry u, .tArmExpiry u, .seatConfirm u, .pgChange u, .rampStall u,
        .rampStallClear u, .cleanInterval u, .ltClear u, .gateSinkDone u])
      ++ ([64].flatMap fun c => [Instr.offStateCheck c, .backfeedEnd c, .gateCheck c, .stallExamination c, .openCheck c, .imbalance c, .tripCellFire c,
        .cycleTrip c, .pwmPeriodStart c, .pwmOffEdge c, .cmpBlankEnd c, .vectorCtrl c 0])
      ++ ([4].flatMap fun n => [Instr.cpUv n, .cpFail n, .cpRecover n, .tRecoverExpiry n, .feedShort n, .feedReverse n, .feedConduct n, .feedLoss n,
        .feedVinOv n, .feedReverseRelease n, .bankBootOn n, .pasteTrap n, .pasteWatchdog [n], .captureDone n, .eventTileClose n])
      ++ ([127, 255].flatMap fun h => [Instr.sequenceStep h, .seqAbort h, .offSequenceStep h]) |>.all fun i => !i.wf) = true := by decide +kernel

theorem test_wf_refuses_the_rest :
    ([Instr.seatRelease 16, .regOv 2, .brownoutRecovery 4294967296 0, .brownoutRecovery 0 4294967296, .pasteFault 4 ⟨0, true, true⟩, .pasteFault 0 ⟨8192, true, true⟩, .vatUe 8192,
      .refReady 2 true, .sliceCalibration 2 true, .burst 8, .eventTokenRefill 256, .ringEntryWrite 15, .ringEntryWrite 32, .coalTimeExpiry 44,
      .streamPageFilled 8, .doorbellPoll (some []) [], .ringSetTableRead (some []), .descriptorFetch 16 [], .descriptorFetch 0 [{ raw := [], data := [] }], .dmaFault 44 0 ⟨0, 0, 0⟩,
      .pageRequestResponse 512 0, .pageRequestTimeout 512, .atsInvalidate 18446744073709551616 0, .doeDiscovery 256, .getCertificate 16 0 0, .challenge 0 [],
      .getMeasurements 1 [], .eventRateWrite 256 0, .bar0Write 65535 [0, 0], .logMemFault (.page 64), .hangRecovery (.sdaLow 10)].all fun i => !i.wf) = true := by
  decide +kernel

/-! ## Small tests: one step, expected values from the rules of the spec -/

/-- What a command leaves of some figure of the state, none where it is stopped. -/
def after {α : Type} (c : Instr) (s : State) (f : State → α) : Option α := match exec c s with | .next t => some (f t) | _ => none

/-- No row of the table has bits. -/
theorem test_no_word_spells_a_command : decodeTableWord 32 0 = none ∧ State.reset.withFetchWord 32 0 = State.reset := ⟨rfl, rfl⟩

/-- R27: DEVICE_ID [31:18], UNIT [17:10], GEN [9:0]. -/
theorem test_handle_layout : mkHandle 1 2 3 = 0x00040803 := by decide +kernel

/-- R31: 1,023 is followed by 1. -/
theorem test_generation_wraps : nextGen 1023 = 1 ∧ nextGen 1 = 2 := by decide +kernel

/-- R320: opcode, FLAGS, TAG with its generation in bits [15:12], HANDLE from byte 4. -/
theorem test_descriptor_layout :
    (encodeSub 0x10 { subm 0x11223344 with tag := 0x123, gen := 4 }).take 8 = [0x10, 0, 0x23, 0x41, 0x44, 0x33, 0x22, 0x11] := by decide +kernel

/-- The check value of CRC-32C over the nine digits (log entry 13). -/
theorem test_crc32c : crc32c [0x31, 0x32, 0x33, 0x34, 0x35, 0x36, 0x37, 0x38, 0x39] = 0xE3069283 := by decide +kernel

/-- R103, R383: a tick is 400 counts in RUN and 3,200 in DOZE. -/
theorem test_tick_run : (advance work).time.gtc = 4000000000400 := by decide +kernel
theorem test_tick_doze : (advance (work.onPower fun p => { p with mode := .doze })).time.gtc = 4000000003200 := by decide +kernel

/-- R457: a device held in reset does not tick. -/
theorem test_tick_in_reset : exec (.protectionTick noTick) State.reset = .next State.reset := by rfl

/-- R113, R120, R128: with no retry left a conducting unit whose fault timer has run out locks, with cause FAULT_TIME. -/
theorem test_fault_timer_locks :
    after (.faultTimerExpiry 3) (setSoft (leafAt 3 fun l => { l with st := .limit, faultT := 800 }) 3 fFaultTime 100)
      (fun t => ((leafOf t 3).st, (leafOf t 3).cause)) = some (.lock, 3) := by decide +kernel

/-- R90, R12: the trip cell sinks the gate of a channel, and the state stays. -/
theorem test_trip_cell : after (.tripCellFire 3) (leafAt 3 fun l => { l with st := .on, gate := .enhance })
    (fun t => ((leafOf t 3).st, (leafOf t 3).gate, (leafOf t 3).tripLatch, (leafOf t 4).tripLatch)) = some (.on, .sinkFast, true, false) := by decide +kernel

/-- R134: a seat pin that opens sets the OFF latch of the leaves mapped to it alone. -/
theorem test_seat_release : after (.seatRelease 0) (leafAt 3 fun l => { l with env := { l.env with seatMap := 0 } })
    (fun t => ((leafOf t 3).offLatch, (leafOf t 4).offLatch)) = some (true, false) := by decide +kernel

/-- R18: a leaf of shed class 0 is left on by a clock failure. -/
theorem test_clock_fail : after .clockFail (onLeaf (leafAt 3 fun l => { l with env := { l.env with shedClass := 2 } }) 4 fun l => l)
    (fun t => ((leafOf t 3).tripLatch, (leafOf t 4).tripLatch)) = some (true, false) := by decide +kernel

/-- R29, R338, R344: a wrong device in the handle is WRONG_DEVICE (17), with RESULT 0. -/
theorem test_wrong_device : after (.unitOn (subm (mkHandle 1 3 1))) work (fun t => (Tbl.get [] t.link.cqHeld 0).map fun c => (c.status, c.result)) =
    some [(17, 0)] := by decide +kernel

/-- R31: GEN 0 is never current: STALE_HANDLE (2). -/
theorem test_stale_handle : after (.unitOff (subm (mkHandle 0 3 0))) work (fun t => (Tbl.get [] t.link.cqHeld 0).map fun c => c.status) = some [2] := by
  decide +kernel

/-- R342: NOP answers OK with the low half of the GTC, here 4,000,000,000,000 counts. -/
theorem test_nop : after (.nop subm) work (fun t => (Tbl.get [] t.link.cqHeld 0).map fun c => (c.status, c.result.toNat)) =
    some [(0, 4000000000000 % 4294967296)] := by decide +kernel

/-- R311: ENABLE with a base of 0 sets SETUP_ERR and is not taken. -/
theorem test_enable_without_bases : after .enable work (fun t => (t.link.setup.enable, t.link.setup.err)) = some (false, true) := by decide +kernel

/-- R312: the lock takes the key 0x4C4B alone. -/
theorem test_setup_lock : after (.setupLock 0x4C4A) work (fun t => t.link.setup.locked) = some false
    ∧ after (.setupLock 0x4C4B) work (fun t => t.link.setup.locked) = some true := by decide +kernel

/-- R454, R457: a pulse of RST_L below 200 ns does nothing, one of 1 µs resets and leaves its cause. -/
theorem test_rst_l : after (.rstL 199) work (fun t => t.power.booting) = some false ∧ after (.rstL 1000) work (fun t => (t.power.booting, t.power.resetCause)) = some (true, 2) := by
  decide +kernel

/-- R335: DOE Discovery of index 0 answers vendor 0x0001, type 0, next index 1. -/
theorem test_doe_discovery : after (.doeDiscovery 0) work (fun t => t.link.doe) = some (.discovery 0 1 0 1) := by decide +kernel

/-- R461: a write of the wrong length is NACKed and acts no further. -/
theorem test_bus_wrong_length : after (.telemSelect .management ⟨[], .good⟩) work (fun t => (t.bus.reply, t.bus.mgmt.unit)) = some (.nackData, State.reset.bus.mgmt.unit) := by
  decide +kernel

/-- R44: a parallel hoop cannot be formed by the host: ENVELOPE (4). -/
theorem test_form_parallel : after (.hoopForm (subm (unitHandle 255) [130, 0, 0])) work
    (fun t => (Tbl.get [] t.link.cqHeld 0).map fun c => c.status) = some [4] := by decide +kernel

/-- R394: a fall of XTRIP_L sets the OFF latch of leaves that react to it. -/
theorem test_xtrip : after (.xtripChange true) (leafAt 3 fun l => { l with env := { l.env with xtripOff := true } })
    (fun t => ((leafOf t 3).offLatch, (leafOf t 4).offLatch)) = some (true, false) := by decide +kernel

/-- A unit number the part does not have does nothing; an access beyond BAR0 stops by name. -/
theorem test_stops : exec (.preflight 71) work = .next work ∧ exec (.bar0Write 65533 [0, 0, 0, 0]) work = .fault (.outsideBar0 65533) :=
  ⟨rfl, rfl⟩

/-- The queue is first in, first out, and a row leaves what waits behind it. -/
theorem test_queue : (match step { work with pending := [.timeGtcLoRead, .enable] } with | .next t => t.pending | _ => []) = [Instr.enable]
    ∧ (match step { work with pending := [.timeGtcLoRead] } with | .next t => t.time.hiLatch | _ => 0) = 4000000000000 / 4294967296 := by decide +kernel

/-! ## The hypotheses of the statements can be met, each clause at a boundary of its range where it has one -/

theorem witness_TripSpendsARetryOrLocks :
    (∃ (s : State) (u mask : Nat), Leads s u ∧ (vleaf s u).st.conducting = true ∧ mask < 256 ∧ (soft s u fRetryMax ≤ 15)) :=
  ⟨leafAt 3 fun l => { l with st := .on }, 3, 4, by decide +kernel⟩

theorem witness_FaultTimerRetriesAndArm :
    (∃ (s : State) (u : Nat), clocked s = true ∧ Leads s u ∧ (vleaf s u).st.conducting = true ∧ soft s u fFaultTime ≠ 0 ∧ (∀ m ∈ groupOf s u,
      (leafOf s m).diag.pending = 0))
    ∧ (∃ (s : State) (u : Nat), clocked s = true ∧ u < 64 ∧ parallelOf s u = none ∧ (leafOf s u).st.conducting = true ∧ soft s u fFaultTime ≠ 0
      ∧ wholeTicks s (soft s u fFaultTime) * 8 ≤ (leafOf s u).faultT ∧ (leafOf s u).diag.pending ≠ 0)
    ∧ (∃ (s : State) (u : Nat), clocked s = true ∧ Leads s u ∧ (vleaf s u).st = .cool ∧ (vleaf s u).retryUs = 0 ∧ rearmed s u = true
      ∧ damagedMember s u = false)
    ∧ (∃ (s : State) (u : Nat), clocked s = true ∧ Leads s u ∧ (vleaf s u).st = .cool ∧ (vleaf s u).retryUs = 0 ∧ rearmed s u = true
      ∧ damagedMember s u = false ∧ (vleaf s u).retryCancelled = false ∧ (vleaf s u).coolShed = false ∧ (vleaf s u).shedHeld = false ∧ noStart s u = false)
    ∧ (∃ (s : State) (u : Nat), clocked s = true ∧ Leads s u ∧ (vleaf s u).st = .arm ∧ seated s u = false
      ∧ wholeTicks s (soft s u fTArm * 1000) ≤ (vleaf s u).armUs)
    ∧ (∃ (s : State) (u k : Nat), clocked s = true ∧ Leads s u ∧ (vleaf s u).st = .arm ∧ tickUs s ≤ (vleaf s u).armUs ∧ refAwaited s u = false
      ∧ preflightCheck s u = some k ∧ k ≠ 3)
    ∧ (∃ (s : State) (u : Nat), clocked s = true ∧ Leads s u ∧ (vleaf s u).st = .on ∧ soft s u fCleanInt * 1000000 ≤ (vleaf s u).cleanT) :=
  ⟨⟨setSoft (leafAt 3 fun l => { l with st := .limit, faultT := 800 }) 3 fFaultTime 100, 3, by decide +kernel⟩,
   ⟨setSoft (leafAt 3 fun l => { l with st := .limit, faultT := 800, diag := { l.diag with pending := 1 } }) 3 fFaultTime 100, 3, by decide +kernel⟩,
   ⟨leafAt 3 fun l => { l with st := .cool }, 3, by decide +kernel⟩,
   ⟨profiled (leafAt 3 fun l => { l with st := .cool }), 3, by decide +kernel⟩,
   ⟨leafAt 3 fun l => { l with st := .arm, armUs := 10000000000, env := { l.env with seatMap := 0 } }, 3, by decide +kernel⟩,
   ⟨leafAt 3 fun l => { l with st := .arm, armUs := 5 }, 3, 1, by decide +kernel⟩,
   ⟨leafAt 3 fun l => { l with st := .on, cleanT := 100000000000 }, 3, by decide +kernel⟩⟩

theorem witness_StartsReachOn :
    (∃ (s : State) (u : Nat), clocked s = true ∧ Leads s u ∧ (vleaf s u).st = .arm ∧ tickUs s ≤ (vleaf s u).armUs ∧ refAwaited s u = false
      ∧ preflightCheck s u = none ∧ 2 * tickUs s ≤ (vleaf s u).armReady.getD 0)
    ∧ (∃ (s : State) (u : Nat), clocked s = true ∧ Leads s u ∧ (vleaf s u).st = .arm ∧ tickUs s ≤ (vleaf s u).armUs ∧ refAwaited s u = false
      ∧ preflightCheck s u = none ∧ 2 * tickUs s ≤ (vleaf s u).armReady.getD 0 ∧ rampComplete (enterRamp s u) u = false)
    ∧ (∃ (s : State) (u : Nat), clocked s = true ∧ Leads s u ∧ (vleaf s u).st = .ramp)
    ∧ (∃ (s : State) (u : Nat), clocked s = true ∧ Leads s u ∧ (vleaf s u).st = .ramp ∧ leafKind u ≠ .hold ∧ supplyMv s u ≤ (vleaf s u).ramp.setpoint
      ∧ supplyMv s u - (soft s u fVDone : Rat) ≤ outMv s u) :=
  ⟨⟨leafAt 68 fun l => { l with st := .arm, armUs := 5, armReady := some 2 }, 68, by decide +kernel⟩,
   ⟨setSoft (leafAt 68 fun l => { l with st := .arm, armUs := 5, armReady := some 2 }) 68 fVout 3300, 68, by decide +kernel⟩,
   ⟨leafAt 3 fun l => { l with st := .ramp }, 3, by decide +kernel⟩,
   ⟨leafAt 3 fun l => { l with st := .ramp }, 3, by decide +kernel⟩⟩

theorem witness_StallsAndLetThrough :
    (∃ (s : State) (u : Nat), clocked s = true ∧ Leads s u ∧ (vleaf s u).st = .ramp ∧ (vleaf s u).ramp.stall = false
      ∧ wholeTicks s (soft s u fTTrack) < (vleaf s u).ramp.lagUs)
    ∧ (∃ (s : State) (u : Nat), clocked s = true ∧ Leads s u ∧ (vleaf s u).st = .ramp ∧ (vleaf s u).ramp.stall = true
      ∧ wholeTicks s (soft s u fTTrack) ≤ (vleaf s u).ramp.clearUs)
    ∧ (∃ (s : State) (u : Nat), clocked s = true ∧ u < 71 ∧ (leafOf s u).led.ltRunning = true
      ∧ (leafOf s u).env.ltClear * 1000 ≤ (leafOf s u).led.ltQuiet) :=
  ⟨⟨leafAt 3 fun l => { l with st := .ramp, ramp := { l.ramp with lagUs := 100000000 } }, 3, by decide +kernel⟩,
   ⟨leafAt 3 fun l => { l with st := .ramp, ramp := { l.ramp with stall := true, clearUs := 100000000 } }, 3, by decide +kernel⟩,
   ⟨leafAt 3 fun l => { l with led := { l.led with ltRunning := true, ltQuiet := 100000000 } }, 3, by decide +kernel⟩⟩

theorem witness_SeatsAndPowerGood :
    (∃ (s : State) (u : Nat), clocked s = true ∧ Leads s u ∧ (vleaf s u).pg = false ∧ (vleaf s u).st = .on ∧ inWindow s u = true
      ∧ wholeTicks s (soft s u fTPg) + tickUs s ≤ (vleaf s u).pgUs)
    ∧ (∃ (s : State) (u : Nat), clocked s = true ∧ Leads s u ∧ (vleaf s u).st ≠ .retired ∧ (vleaf s u).pg = true ∧ ((vleaf s u).st ≠ .on
      ∧ (vleaf s u).st ≠ .limit ∨ inWindow s u = false ∨ ((vleaf s u).limitNow = true ∧ soft s u fPgDrop = 1)))
    ∧ (∃ (s : State) (u : Nat), clocked s = true ∧ Leads s u ∧ seatsOf s u ≠ [] ∧ u ∉ s.press.confirmed ∧ (∀ i ∈ seatsOf s u,
      5000 ≤ Tbl.get 0 s.press.mated i))
    ∧ (∃ (s : State) (pin : Nat), s.power.booting = false ∧ pin < 16)
    ∧ (∃ (s : State) (low : Bool), s.power.booting = false ∧ s.press.xtripLow ≠ low) :=
  ⟨⟨leafAt 3 fun l => { l with st := .on, sub := 1, pgUs := 100000000, pwm := { l.pwm with running := true } }, 3, by decide +kernel⟩,
   ⟨leafAt 3 fun l => { l with st := .cool, pg := true }, 3, by decide +kernel⟩,
   ⟨(leafAt 3 fun l => { l with env := { l.env with seatMap := 0 } }).onPress fun p => { p with mated := [(0, 5000)] }, 3, by decide +kernel⟩,
   ⟨work, 15, by decide +kernel⟩,
   ⟨work, true, by decide +kernel⟩⟩

theorem witness_PumpsProtectTheirBanks :
    (∃ (s : State) (b : Nat), clocked s = true ∧ b < 4 ∧ (pumpOf s b).uv = false ∧ 10 ≤ (pumpOf s b).lowUs)
    ∧ (∃ (s : State) (b : Nat), clocked s = true ∧ b < 4 ∧ 100 ≤ (pumpOf s b).okUs)
    ∧ (∃ (s : State) (b : Nat), clocked s = true ∧ b < 4 ∧ (pumpOf s b).fail = false ∧ 10 ≤ (pumpOf s b).failUs) :=
  ⟨⟨onPump work 3 fun p => { p with lowUs := 10 }, 3, by decide +kernel⟩,
   ⟨onPump work 3 fun p => { p with okUs := 100 }, 3, by decide +kernel⟩,
   ⟨onPump work 3 fun p => { p with failUs := 10 }, 3, by decide +kernel⟩⟩

theorem witness_SequencesRunAndAbort :
    (∃ (s : State) (h k us : Nat) (x : Hoop) (st : List (Nat × Nat)), clocked s = true ∧ 128 ≤ h ∧ h ≤ 254 ∧ hoopOf s h = some x ∧ x.seq = .on k us st
      ∧ (∀ e ∈ dueEntries s x k us st, hoopOf s e.member = none ∧ Solo s e.member ∧ (leafOf s e.member).st = .off ∧ startRefusal s e.member = none))
    ∧ (∃ (s : State) (h k us : Nat) (x y : Hoop) (st : List (Nat × Nat)) (e : SeqEntry) (k0 : Nat), clocked s = true ∧ 128 ≤ h ∧ h ≤ 254
      ∧ hoopOf s h = some x ∧ x.seq = .on k us st ∧ dueEntries s x k us st = [e] ∧ e.member ≠ h ∧ hoopOf s e.member = some y ∧ y.parallel = false
      ∧ y.seq = .idle ∧ (unitAgg s e.member).1 ≠ .retired ∧ lowest (stepsFor y y.members) = some k0 ∧ dueEntries s y k0 0 [] = [])
    ∧ (∃ (s : State) (h : Nat) (x : Hoop) (c : Nat × Nat × Nat), clocked s = true ∧ 128 ≤ h ∧ h ≤ 254 ∧ hoopOf s h = some x ∧ x.ending = none
      ∧ x.seq.isOn = true ∧ firstCause (abortCauses s x x.seq) = some c)
    ∧ (∃ (s : State) (h k us : Nat) (x : Hoop) (ms : List Nat), clocked s = true ∧ 128 ≤ h ∧ h ≤ 254 ∧ hoopOf s h = some x
      ∧ x.seq = .off ms (some k) (some us) ∧ 0 < us
      ∧ wholeTicks s ((entriesAt x ms ((lowest ((stepsFor x ms).filter (k < ·))).getD 0)).foldl (fun g e => Nat.max g e.delay) 0 * 100) ≤ us
      ∧ (∀ e ∈ entriesAt x ms k, hoopOf s e.member = none ∧ Solo s e.member) ∧ (entriesAt x ms k).Pairwise (fun e f => e.member ≠ f.member)) :=
  ⟨⟨profiled (hoopsAt [(130, { groupHoop with seq := .on 0 0 [] })]), 130, 0, 0, { groupHoop with seq := .on 0 0 [] }, [], by decide +kernel⟩,
   ⟨hoopsAt [(130, { groupHoop with table := [⟨3, 1, true, 5, 100⟩], parent := 131 }), (131,
     { parallel := false, members := [130], table := [⟨130, 0, true, 0, 100⟩], seq := .on 0 0 [] })], 131, 0, 0,
     { parallel := false, members := [130], table := [⟨130, 0, true, 0, 100⟩], seq := .on 0 0 [] },
     { groupHoop with table := [⟨3, 1, true, 5, 100⟩], parent := 131 }, [], ⟨130, 0, true, 0, 100⟩, 1, by decide +kernel⟩,
   ⟨hoopsAt [(130, { groupHoop with seq := .on 0 0 [(3, 0)] })] (leafAt 3 fun l => { l with st := .lock }), 130,
     { groupHoop with seq := .on 0 0 [(3, 0)] }, (4, 5, 3), by decide +kernel⟩,
   ⟨hoopsAt [(130, { groupHoop with seq := .off [3, 4] (some 1) (some 100000) })], 130, 1, 100000,
     { groupHoop with seq := .off [3, 4] (some 1) (some 100000) }, [3, 4], by decide +kernel⟩⟩

theorem witness_OffStateAndGateChecks :
    (∃ (s : State) (ch : Nat), clocked s = true ∧ ch < 64 ∧ bankReleased s ch = false ∧ offRuns s ch = true ∧ checkTime s ch ≤ (leafOf s ch).diag.leakUs
      ∧ (leafOf s ch).diag.leakI.length = 16)
    ∧ (∃ (s : State) (ch : Nat), clocked s = true ∧ ch < 64 ∧ bankReleased s ch = false ∧ (leafOf s ch).diag.backfeed = true
      ∧ checkTime s ch ≤ (leafOf s ch).diag.quietUs)
    ∧ (∃ (s : State) (ch : Nat), clocked s = true ∧ ch < 64 ∧ bankReleased s ch = false ∧ offRuns s ch = true ∧ checkTime s ch ≤ (leafOf s ch).diag.leakUs
      ∧ (leafOf s ch).diag.leakI.length = 16 ∧ (soft s ch fLeakI : Rat) ≤ meanOf (leafOf s ch).diag.leakI ∧ (leafOf s ch).diag.verdict ≠ 1)
    ∧ (∃ (s : State) (ch : Nat) (g : Rat), clocked s = true ∧ ch < 64 ∧ bankReleased s ch = false ∧ (leafOf s ch).diag.gateOpen = true
      ∧ ((vleaf s ch).st = .on ∨ (vleaf s ch).st = .limit) ∧ (leafOf s ch).st ≠ .retired ∧ gateSample s ch = some g ∧ (leafOf s ch).diag.pending = 0)
    ∧ (∃ (s : State) (ch : Nat) (g : Rat), clocked s = true ∧ ch < 64 ∧ bankReleased s ch = false ∧ (leafOf s ch).diag.gateOpen = true
      ∧ ((vleaf s ch).st = .on ∨ (vleaf s ch).st = .limit) ∧ (leafOf s ch).st ≠ .retired ∧ gateSample s ch = some g ∧ (leafOf s ch).diag.pending = 0
      ∧ (soft s ch fVgsOk : Rat) ≤ g ∧ (leafOf s ch).diag.shortAtArm = false) :=
  ⟨⟨leafAt 3 fun l => { l with diag := { l.diag with holdOffUs := 1000, leakUs := 100000000, leakI := List.replicate 16 0 } }, 3, by decide +kernel⟩,
   ⟨leafAt 3 fun l => { l with diag := { l.diag with backfeed := true, quietUs := 100000000 } }, 3, by decide +kernel⟩,
   ⟨leafAt 3 fun l => { l with diag := { l.diag with holdOffUs := 1000, leakUs := 100000000, leakI := List.replicate 16 100000 } }, 3, by decide +kernel⟩,
   ⟨sampleAt (gNode 3) 0 (sampleAt (vNode 3) 0 (leafAt 3 fun l => { l with st := .on, diag := { l.diag with gateOpen := true, gateFrom := 3999999999000 } })),
     3, 0, by decide +kernel⟩,
   ⟨sampleAt (gNode 3) 20000 (sampleAt (vNode 3) 0 (leafAt 3 fun l => { l with st := .on, diag := { l.diag with gateOpen := true, gateFrom := 3999999999000 } })),
     3, 390625 / 8, by decide +kernel⟩⟩

theorem witness_StallOpenAndImbalance :
    (∃ (s : State) (ch : Nat) (g : Rat), clocked s = true ∧ ch < 64 ∧ bankReleased s ch = false ∧ (vleaf s (slotOf s ch)).st = .ramp
      ∧ (vleaf s (slotOf s ch)).ramp.stall = true ∧ ch ∈ liveOf s (slotOf s ch) ∧ (leafOf s ch).ramp.examined = false ∧ (∀ m ∈ liveOf s (slotOf s ch),
      (usableMa s m).isSome = true) ∧ ((liveOf s (slotOf s ch)).filterMap (usableMa s)).foldl (· + ·) 0 < (soft s (slotOf s ch) fLeakI : Rat)
      ∧ (vleaf s (slotOf s ch)).ramp.stallAt + usGtc (wholeTicks s (soft s (slotOf s ch) fTGate)) ≤ (nodeOf s (gNode ch)).at_ ∧ vgs s ch = some g
      ∧ (leafOf s ch).diag.pending = 0)
    ∧ (∃ (s : State) (ch : Nat), clocked s = true ∧ ch < 64 ∧ bankReleased s ch = false ∧ openNow s ch = some true
      ∧ checkTime s ch ≤ (leafOf s ch).diag.openUs ∧ (leafOf s ch).diag.verdict ≠ 3 ∧ (leafOf s ch).diag.verdict ≠ 1)
    ∧ (∃ (s : State) (ch : Nat), clocked s = true ∧ ch < 64 ∧ bankReleased s ch = false ∧ (leafOf s ch).diag.imbRaised = false
      ∧ checkTime s ch ≤ (leafOf s ch).diag.imbUs ∧ 0 < (leafOf s ch).diag.imbUs)
    ∧ (∃ (s : State) (ch : Nat), clocked s = true ∧ ch < 64 ∧ bankReleased s ch = true) :=
  ⟨⟨sampleAt (iNode 3) 0 (sampleAt (gNode 3) 0 (sampleAt (vNode 3) 0 (leafAt 3 fun l => { l with st := .ramp, ramp := { l.ramp with stall := true } }))),
    3, 0, by decide +kernel⟩,
   ⟨sampleAt (iNode 3) 0 (sampleAt 192 12000 (sampleAt (gNode 3) 8000 (sampleAt (vNode 3) 0 (leafAt 3 fun l => { l with st := .on, diag := { l.diag with openUs := 100000000 } })))),
     3, by decide +kernel⟩,
   ⟨leafAt 3 fun l => { l with diag := { l.diag with imbUs := 100000000 } }, 3, by decide +kernel⟩,
   ⟨onBank work (nodeBank (iNode 3)) fun b => { b with released := true }, 3, by decide +kernel⟩⟩

theorem witness_TripCellSinksItsUnit :
    (∃ (s : State) (ch : Nat), s.power.booting = false ∧ ch < 64 ∧ cellPowered s ch = true)
    ∧ (∃ (s : State) (ch : Nat), s.power.booting = false ∧ ch < 64 ∧ cellPowered s ch = true ∧ slotOf s ch = ch ∧ switching (vleaf s ch) = true
      ∧ (vleaf s ch).st.conducting = true ∧ blanked s ch = false) :=
  ⟨⟨work, 63, by decide +kernel⟩,
   ⟨leafAt 3 fun l => { l with st := .on, pwm := { l.pwm with running := true, curDuty := 100 } }, 3, by decide +kernel⟩⟩

theorem witness_PwmPeriodsAndEdges :
    (∃ (s : State) (ch t0 : Nat), clocked s = true ∧ ch < 64 ∧ Leads s ch ∧ ((vleaf s ch).st = .on ∨ (vleaf s ch).st = .limit)
      ∧ ((leafOf s ch).pwm.set = true ∨ (leafOf s ch).pwm.running = true) ∧ periodDue s (vleaf s ch) = some t0)
    ∧ (∃ (s : State) (ch t0 : Nat), clocked s = true ∧ ch < 64 ∧ Leads s ch ∧ ((vleaf s ch).st = .on ∨ (vleaf s ch).st = .limit)
      ∧ (leafOf s ch).pwm.set = true ∧ periodDue s (vleaf s ch) = some t0)
    ∧ (∃ (s : State) (ch : Nat), clocked s = true ∧ ch < 64 ∧ Leads s ch ∧ switching (vleaf s ch) = true ∧ (vleaf s ch).pwm.gateOn = true
      ∧ (vleaf s ch).pwm.offDue = true
      ∧ edgeAt s (vleaf s ch).pwm.startAt + nOn s (vleaf s ch).pwm.curPeriod (vleaf s ch).pwm.curDuty ≤ s.time.gtc + tickGtc s)
    ∧ (∃ (s : State) (ch : Nat), clocked s = true ∧ ch < 64 ∧ (leafOf s ch).pwm.blankUntil ≤ s.time.gtc + tickGtc s)
    ∧ (∃ (s : State) (u : Nat), u < 71 ∧ ((leafOf s u).gate = .sinkSlew ∨ (leafOf s u).gate = .sinkFast)) :=
  ⟨⟨leafAt 3 fun l => { l with st := .on, pwm := { l.pwm with set := true, period := 16000, duty := 100 } }, 3, 4000000000000, by decide +kernel⟩,
   ⟨leafAt 3 fun l => { l with st := .on, pwm := { l.pwm with set := true, period := 16000, duty := 100 } }, 3, 4000000000000, by decide +kernel⟩,
   ⟨leafAt 3 fun l => { l with st := .on, pwm := { l.pwm with set := true, running := true, curDuty := 100, curPeriod := 16000, gateOn := true, offDue := true } },
     3, by decide +kernel⟩,
   ⟨work, 63, by decide +kernel⟩,
   ⟨leafAt 70 fun l => { l with gate := .sinkFast }, 70, by decide +kernel⟩⟩

theorem witness_ShedGatesFireTheirMask :
    (∃ (_s : State) (_k v : Nat), v < 71) :=
  ⟨work, 4, 70, by decide +kernel⟩

theorem witness_FeedShortAndLoss :
    (∃ (s : State) (f : Nat), s.power.booting = false ∧ f < 4 ∧ cellPowered s (64 + f) = true)
    ∧ (∃ (s : State) (f : Nat), s.power.booting = false ∧ f < 4 ∧ (leafOf s (64 + f)).st.conducting = true ∧ (leafOf s (64 + f)).lost = false
      ∧ ((leafOf s (64 + f)).tripLatch = true ∨ (leafOf s (64 + f)).offLatch = true ∨ vinUv s (64 + f) = true)) :=
  ⟨⟨work, 3, by decide +kernel⟩,
   ⟨leafAt 67 fun l => { l with st := .on, tripLatch := true }, 3, by decide +kernel⟩⟩

theorem witness_FeedsBlockAndRecover :
    (∃ (s : State) (f : Nat), s.power.booting = false ∧ f < 4 ∧ cellPowered s (64 + f) = true ∧ (cellOf s (260 + f)).level = false)
    ∧ (∃ (s : State) (f : Nat), s.power.booting = false ∧ f < 4 ∧ cellPowered s (64 + f) = true ∧ (cellOf s (260 + f)).level = true)
    ∧ (∃ (s : State) (f : Nat), s.power.booting = false ∧ f < 4 ∧ cellPowered s (64 + f) = true ∧ (leafOf s (64 + f)).st.conducting = true
      ∧ (leafOf s (64 + f)).tripLatch = false ∧ (leafOf s (64 + f)).offLatch = false ∧ (cellOf s (260 + f)).level = false)
    ∧ (∃ (s : State) (f : Nat), f < 4 ∧ (leafOf s (64 + f)).st = .on)
    ∧ (∃ (s : State) (f : Nat), s.power.booting = false ∧ f < 4 ∧ cellPowered s (64 + f) = true ∧ heldNow s (268 + f) = true)
    ∧ (∃ (s : State) (f : Nat), s.power.booting = false ∧ f < 4 ∧ cellPowered s (64 + f) = true ∧ heldNow s (268 + f) = false)
    ∧ (∃ (s : State) (f : Nat), clocked s = true ∧ f < 4 ∧ (leafOf s (64 + f)).lost = true ∧ (leafOf s (64 + f)).st = .on
      ∧ (feedParams s (64 + f)).tRecover * 1000 ≤ (leafOf s (64 + f)).recoverUs) :=
  ⟨⟨onCell work 263 fun c => { c with level := false }, 3, by decide +kernel⟩,
   ⟨onCell work 263 fun c => { c with level := true }, 3, by decide +kernel⟩,
   ⟨onCell (leafAt 67 fun l => { l with st := .on }) 263 fun c => { c with level := false }, 3, by decide +kernel⟩,
   ⟨leafAt 67 fun l => { l with st := .on }, 3, by decide +kernel⟩,
   ⟨onCell work 271 fun c => { c with holdUntil := 4000000000001 }, 3, by decide +kernel⟩,
   ⟨work, 3, by decide +kernel⟩,
   ⟨leafAt 67 fun l => { l with st := .on, lost := true, recoverUs := 1000000000 }, 3, by decide +kernel⟩⟩

theorem witness_HoldReleases :
    (∃ (s : State), s.power.booting = false ∧ (leafOf s 70).st = .on ∧ (leafOf s 70).sub ≠ 2 ∧ holdBusMv s < mv s 216)
    ∧ (∃ (s : State), s.power.booting = false ∧ s.press.holdTrigger = true ∧ parallelOf s 70 = none
      ∧ (((holdParams s).eReleaseMax : Rat) ≤ s.press.hold.eRel ∨ 1000 ≤ s.press.hold.endUs)) :=
  ⟨⟨sampleAt 216 20000 (leafAt 70 fun l => { l with st := .on }), by decide +kernel⟩,
   ⟨work.onPress fun p => { p with holdTrigger := true, hold := { p.hold with endUs := 1000 } }, by decide +kernel⟩⟩

theorem witness_RegulatorsProtectAndCycle :
    (∃ (s : State) (r : Nat), s.power.booting = false ∧ r < 2)
    ∧ (∃ (s : State) (rs : List Nat), clocked s = true ∧ s.press.regCycle = some (0, rs) ∧ rs.Nodup ∧ (∀ u ∈ rs, (u = 68 ∨ u = 69) ∧ parallelOf s u = none))
    ∧ (∃ (s : State) (t0 : Nat), clocked s = true ∧ s.link.regRestartAt = some t0 ∧ s.link.hostLost = true ∧ s.link.regCycles < 3
      ∧ t0 + 12000000000 ≤ s.time.gtc ∧ parallelOf s 68 = none ∧ parallelOf s 69 = none) :=
  ⟨⟨work, 1, by decide +kernel⟩,
   ⟨work.onPress fun p => { p with regCycle := some (0, [68, 69]) }, [68, 69], by decide +kernel⟩,
   ⟨work.onLink fun l => { l with regRestartAt := some 0, hostLost := true, regCycles := 2 }, 0, by decide +kernel⟩⟩

theorem witness_ClocksAndSuppliesFail :
    (∃ (s : State), s.power.booting = false ∧ s.power.clockFail = false)
    ∧ (∃ (s : State) (_inp : TickInputs) (u : Nat) (_x : WakeInputs), s.power.clockFail = true ∧ u < 71)
    ∧ (∃ (s : State), clocked s = true ∧ s.power.brownout = false)
    ∧ (∃ (s : State) (v d : Nat), clocked s = true ∧ s.power.brownout = true ∧ v < 4294967296 ∧ d < 4294967296 ∧ s.bus.held = none
      ∧ s.fw.commitDue = false) :=
  ⟨⟨work, by decide +kernel⟩,
   ⟨work.onPower fun p => { p with clockFail := true }, noTick, 70, wakeTimer, by decide +kernel⟩,
   ⟨work, by decide +kernel⟩,
   ⟨work.onPower fun p => { p with brownout := true }, 4294967295, 0, by decide +kernel⟩⟩

theorem witness_ResetsClearTheDevice :
    (∃ (_s : State) (w : Nat), 1000 ≤ w)
    ∧ (∃ (_s : State) (w : Nat), w < 200)
    ∧ (∃ (_s : State) (w : Nat), 200 ≤ w ∧ w < 1000) :=
  ⟨⟨work, 1000, by decide +kernel⟩,
   ⟨work, 199, by decide +kernel⟩,
   ⟨work, 999, by decide +kernel⟩⟩

theorem witness_DeviceBoots :
    (∃ (s : State) (x : BootInputs), s.power.booting = true ∧ (Instr.boot x).wf = true ∧ (x.clkRef = true → x.refValid = true))
    ∧ (∃ (s : State) (x : BootInputs), (Instr.boot x).wf = true ∧ (s.power.booting = false ∨ (x.clkRef = true ∧ x.refValid = false)))
    ∧ (∃ (s : State) (x : BootInputs) (k : Nat), s.power.booting = true ∧ (Instr.boot x).wf = true ∧ (x.clkRef = true → x.refValid = true)
      ∧ rindChoice s = some k)
    ∧ (∃ (s : State) (b : Nat), clocked s = true ∧ b < 4 ∧ s.fw.rind = .running ∧ s.fw.profile.isSome = true ∧ bankInRange s b = true
      ∧ (∀ u ∈ bankBootUnits s b, Leads s u) ∧ (bankBootUnits s b).Pairwise (fun u w => ∀ m ∈ groupOf s u, m ∉ groupOf s w))
    ∧ (∃ (s : State) (b u : Nat), clocked s = true ∧ b < 4 ∧ s.fw.rind = .running ∧ s.fw.profile.isSome = true ∧ bankInRange s b = true
      ∧ bankBootUnits s b = [u] ∧ Leads s u ∧ (vleaf s u).st = .off ∧ startRefusal s u = none ∧ damagedMember s u = false) :=
  ⟨⟨State.reset, bootPins, by decide +kernel⟩,
   ⟨work, bootPins, by decide +kernel⟩,
   ⟨State.reset.onNvm fun n => { n with rind0 := { verified := some {} } }, bootPins, 0, by decide +kernel⟩,
   ⟨sampleAt 192 12000 (work.onFw fun f => { f with profile := some (parseProfile []) }), 0, by decide +kernel⟩,
   ⟨sampleAt 192 12000 ((leafAt 3 fun l => { l with env := { l.env with bootOn := true } }).onFw fun f => { f with profile := some (parseProfile []) }), 0,
     3, by decide +kernel⟩⟩

theorem witness_ParkAndWake :
    (∃ (s : State), clocked s = true ∧ s.power.parkPending = true ∧ s.link.up = true ∧ s.fw.rind = .running)
    ∧ (∃ (s : State) (x : WakeInputs), (Instr.wake x).wf = true ∧ s.power.mode = .park ∧ s.power.booting = false ∧ s.power.clockFail = false
      ∧ s.fw.rind = .parked ∧ s.power.next = none ∧ wakePresent x s = true ∧ (∀ f ∈ s.link.flights, f.op.schedulable = true)) :=
  ⟨⟨work.onPower fun p => { p with parkPending := true }, by decide +kernel⟩,
   ⟨(work.onPower fun p => { p with mode := .park }).onFw fun f => { f with rind := .parked }, wakeTimer, by decide +kernel⟩⟩

theorem witness_PasteIsSupervised :
    (∃ (s : State) (core : Nat), clocked s = true ∧ core < 4 ∧ s.fw.rind = .running ∧ s.fw.paste = .serving ∧ s.fw.handover = none ∧ newPaste s = false)
    ∧ (∃ (s : State) (core : Nat), clocked s = true ∧ core < 4 ∧ s.fw.rind = .running ∧ s.fw.paste = .serving ∧ s.fw.handover = none ∧ newPaste s = false
      ∧ (countRestart s).fw.pasteRestarts.length < 5)
    ∧ (∃ (s : State) (core tile : Nat) (write checked : Bool), ((∀ w ∈ Tbl.get [] s.vat.windows core, ¬ (w.first ≤ tile ∧ tile < w.first + w.count
      ∧ w.holder = (tagOf s tile).holder ∧ (write = true → w.write = true))) ∨ (write = false ∧ checked = false ∧ (tagOf s tile).state = .closed))
      ∧ clocked s = true ∧ core < 4 ∧ tile < 8192 ∧ s.fw.paste = .serving)
    ∧ (∃ (s : State) (core tile : Nat) (write checked : Bool) (w : Window), clocked s = true ∧ core < 4 ∧ tile < 8192 ∧ w ∈ Tbl.get [] s.vat.windows core
      ∧ w.first ≤ tile ∧ tile < w.first + w.count ∧ w.holder = (tagOf s tile).holder ∧ (write = true → w.write = true)
      ∧ (write = true ∨ checked = true ∨ (tagOf s tile).state ≠ .closed))
    ∧ (∃ (s : State) (l : List Nat), clocked s = true ∧ (∀ c ∈ l, c < 4) ∧ s.fw.rind = .running ∧ s.fw.paste = .serving)
    ∧ (∃ (s : State), clocked s = true ∧ s.fw.rind = .running ∧ s.power.brownout = false ∧ s.fw.paste = .serving ∧ s.fw.selfCheckDue = true
      ∧ s.fw.restartDue = none ∧ s.fw.handover = none)
    ∧ (∃ (s : State) (id k : Nat), clocked s = true ∧ s.fw.rind = .running ∧ s.power.brownout = false ∧ s.fw.paste = .serving ∧ s.fw.selfCheckDue = true
      ∧ s.fw.restartDue = none ∧ s.fw.handover = some (id, k))
    ∧ (∃ (s : State), clocked s = true ∧ s.fw.paste = .serving ∧ s.fw.selfCheckDue = true ∧ s.fw.restartDue = none)
    ∧ (∃ (s : State) (l : List Nat) (c : Nat), clocked s = true ∧ (∀ c ∈ l, c < 4) ∧ s.fw.rind = .running ∧ s.fw.paste = .serving ∧ c ∈ l
      ∧ c ∈ s.fw.stalled ∧ (s.power.mode = .doze → c = 0)) :=
  ⟨⟨work, 3, by decide +kernel⟩,
   ⟨work, 3, by decide +kernel⟩,
   ⟨work, 3, 8191, true, true, Or.inl (by decide +kernel), by decide +kernel⟩,
   ⟨work.onVat fun v => { v with windows := [(3, [⟨8191, 1, 0, false⟩])] }, 3, 8191, false, true, ⟨8191, 1, 0, false⟩, by decide +kernel⟩,
   ⟨work, [3], by decide +kernel⟩,
   ⟨work.onFw fun f => { f with selfCheckDue := true }, by decide +kernel⟩,
   ⟨work.onFw fun f => { f with selfCheckDue := true, handover := some (0, 1) }, 0, 1, by decide +kernel⟩,
   ⟨work.onFw fun f => { f with selfCheckDue := true }, by decide +kernel⟩,
   ⟨work.onFw fun f => { f with stalled := [3] }, [3], 3, by decide +kernel⟩⟩

theorem witness_RindResetsAndReturns :
    (∃ (s : State), clocked s = true ∧ s.fw.rind = .running)
    ∧ (∃ (s : State), clocked s = true ∧ s.fw.rind = .domainReset ∧ s.fw.restartDue = none ∧ s.fw.commitDue = false ∧ s.power.brownout = false) :=
  ⟨⟨work, by decide +kernel⟩,
   ⟨work.onFw fun f => { f with rind := .domainReset }, by decide +kernel⟩⟩

theorem witness_DebugPort :
    (∃ (s : State) (_token : List Byte), clocked s = true ∧ s.fw.rind = .running ∧ s.fw.debugRefusals < 3)
    ∧ (∃ (s : State) (_token : List Byte), clocked s = true ∧ s.fw.rind = .running ∧ 3 ≤ s.fw.debugRefusals)
    ∧ (∃ (s : State) (scope e : Nat), clocked s = true ∧ s.fw.rind = .running ∧ s.fw.debug = some (scope, e))
    ∧ (∃ (s : State) (_token : List Byte), clocked s = true ∧ s.fw.rind = .running ∧ s.fw.debugRefusals < 3)
    ∧ (∃ (s : State) (scope e : Nat), clocked s = true ∧ s.fw.rind = .running ∧ s.fw.debug = some (scope, e) ∧ e < s.power.opsec) :=
  ⟨⟨work, [], by decide +kernel⟩,
   ⟨work.onFw fun f => { f with debugRefusals := 3 }, [], by decide +kernel⟩,
   ⟨work.onFw fun f => { f with debug := some (1, 20) }, 1, 20, by decide +kernel⟩,
   ⟨work, [], by decide +kernel⟩,
   ⟨work.onFw fun f => { f with debug := some (1, 9999) }, 1, 9999, by decide +kernel⟩⟩

theorem witness_VatAndMirror :
    (∃ (s : State) (x : PatrolFinding), clocked s = true ∧ s.fw.rind = .running ∧ x.double = false
      ∧ (x.crcBad = true → (tagOf s s.vat.patrolAt).state ≠ .closed))
    ∧ (∃ (s : State) (x : PatrolFinding), clocked s = true ∧ s.fw.rind = .running ∧ (x.double = true ∨ (x.crcBad = true
      ∧ (tagOf s s.vat.patrolAt).state = .closed)))
    ∧ (∃ (s : State) (tile : Nat), clocked s = true ∧ tile < 8192 ∧ workingTile s tile = true ∧ (tagOf s tile).holder = 1)
    ∧ (∃ (s : State) (tile : Nat), clocked s = true ∧ tile < 8192 ∧ workingTile s tile = false)
    ∧ (∃ (s : State), (∀ r, Tbl.find s.vat.retained s.vat.retentionHalf = some r → r.at_ + 400000 ≤ s.time.gtc) ∧ clocked s = true ∧ s.fw.rind = .running)
    ∧ (∃ (s : State), clocked s = true ∧ pressRuns s = true ∧ s.time.mirrorDue ≤ s.time.gtc) :=
  ⟨⟨work, ⟨0, false, false, true⟩, by decide +kernel⟩,
   ⟨work, ⟨0, true, false, true⟩, by decide +kernel⟩,
   ⟨setTag work 8191 { state := .filling, holder := 1 }, 8191, by decide +kernel⟩,
   ⟨work, 8191, by decide +kernel⟩,
   ⟨work, (fun _ h => nomatch h), by decide +kernel⟩,
   ⟨work, by decide +kernel⟩⟩

theorem witness_CaveAndMemoryRows :
    (∃ (s : State) (r : CaveRec), clocked s = true ∧ s.fw.rind = .running ∧ s.power.brownout = false ∧ s.cave.open_ = some r ∧ r.valid = true
      ∧ s.cave.openEnd ≤ s.time.gtc)
    ∧ (∃ (s : State) (p : Nat) (r : CaveRec), clocked s = true ∧ s.fw.rind = .running ∧ s.power.brownout = false ∧ p < 64 ∧ s.cave.mode = .normal
      ∧ p ∉ s.cave.badPages ∧ s.cave.failRun = 0 ∧ s.cave.badPages.length < 62 ∧ s.cave.page ∉ s.cave.badPages ∧ (∀ e ∈ s.cave.erases, e.2 < 99998)
      ∧ s.cave.faultsDue = [] ∧ s.cave.ring.getLast? = some (p, r))
    ∧ (∃ (s : State) (p : Nat), clocked s = true ∧ s.fw.rind = .running ∧ p < 64 ∧ s.cave.mode = .normal ∧ p ∉ s.cave.badPages
      ∧ (2 ≤ s.cave.failRun ∨ 63 ≤ s.cave.badPages.length))
    ∧ (∃ (s : State), clocked s = true ∧ s.fw.rind = .running)
    ∧ (∃ (s : State), clocked s = true ∧ s.fw.rind = .running ∧ s.power.brownout = false ∧ s.power.ctrAt + 600 ≤ s.power.opsec)
    ∧ (∃ (s : State), clocked s = true ∧ s.fw.rind = .running ∧ s.power.brownout = false ∧ s.power.refreshAt + 60 ≤ s.power.opsec) :=
  ⟨⟨work.onCave fun c => { c with open_ := some caveRec }, caveRec, by decide +kernel⟩,
   ⟨work.onCave fun c => { c with ring := [(5, caveRec)] }, 5, caveRec, by decide +kernel⟩,
   ⟨work.onCave fun c => { c with failRun := 2 }, 63, by decide +kernel⟩,
   ⟨work, by decide +kernel⟩,
   ⟨measuring, by decide +kernel⟩,
   ⟨work, by decide +kernel⟩⟩

theorem witness_ConversionReachesItsNode :
    (∃ (s : State) (c : ConversionData), (∀ id e, c.kind ≠ .sequence id e) ∧ clocked s = true ∧ c.bank < 2 ∧ c.slice < 11 ∧ c.node < 243
      ∧ mayConvert s c = true) :=
  ⟨measuring, ⟨0, 3, 0, 5, .standing⟩, (fun _ _ h => nomatch h), by decide +kernel⟩

theorem witness_BurstsAndCaptures :
    (∃ (s : State) (c : ConversionData) (id e : Nat) (q : Sequence), clocked s = true ∧ c.bank < 2 ∧ c.slice < 11 ∧ c.node < 243 ∧ mayConvert s c = true
      ∧ c.kind = .sequence id e ∧ Tbl.find s.meas.seqs id = some q)
    ∧ (∃ (s : State) (id : Nat) (q : Sequence) (p : Nat × Stream), clocked s = true ∧ id < 8 ∧ Tbl.find s.meas.seqs id = some q ∧ streamOf s id = some p
      ∧ q.nodes ≠ [] ∧ q.suspended = false ∧ (mbank s q.bank).bankFail = false ∧ (mbank s q.bank).refOn = true)
    ∧ (∃ (s : State) (k : Nat), clocked s = true ∧ k < 4 ∧ (capOf s k).state = .filling)
    ∧ (∃ (s : State) (id trig start : Nat) (late : Bool) (q : Sequence) (p : Nat × Stream), clocked s = true ∧ id < 8 ∧ Tbl.find s.meas.seqs id = some q
      ∧ streamOf s id = some p ∧ q.nodes ≠ [] ∧ q.burst = none ∧ q.suspended = false ∧ (mbank s q.bank).bankFail = false ∧ (mbank s q.bank).refOn = true
      ∧ q.armed = some (trig, start, late) ∧ start < s.time.gtc + tickGtc s)
    ∧ (∃ (s : State) (k : Nat), clocked s = true ∧ k < 4 ∧ (capOf s k).state = .filling ∧ captureReading s k = false
      ∧ rowFrom ((capOf s k).trigGtc + (capOf s k).post * 400) (capOf s k).interval ≤ s.time.gtc) :=
  ⟨⟨measuring.onMeas fun m => { m with seqs := [(0, seq1 (some (0, 0, false)))] }, ⟨0, 3, 5, 7, .sequence 0 0⟩, 0, 0, seq1 (some (0, 0, false)),
    by decide +kernel⟩,
   ⟨measuring.onMeas fun m => { m with seqs := [(7, seq1 none)], streams := [(2, { seqId := 7 })] }, 7, seq1 none, (2, { seqId := 7 }), by decide +kernel⟩,
   ⟨work.onMeas fun m => { m with captures := [(3, { state := .filling })] }, 3, by decide +kernel⟩,
   ⟨measuring.onMeas fun m => { m with seqs := [(7, { seq1 none with armed := some (0, 4000000000000, false) })], streams := [(2, { seqId := 7 })] }, 7, 0,
     4000000000000, false, { seq1 none with armed := some (0, 4000000000000, false) }, (2, { seqId := 7 }), by decide +kernel⟩,
   ⟨work.onMeas fun m => { m with captures := [(3, { state := .filling })] }, 3, by decide +kernel⟩⟩

theorem witness_SixteenPairsDecide :
    (∃ (s : State) (c : ConversionData) (ck : Nat) (raw : Int), clocked s = true ∧ c.bank < 2 ∧ c.slice < 11 ∧ mayConvert s c = true
      ∧ c.kind = .pair ck raw ∧ c.node < 243 ∧ makesPair s c.bank c.node ck = true ∧ (nodeOf s c.node).pairs = 15 ∧ (nodeOf s c.node).plausFail = false
      ∧ s.time.gtc ≥ (nodeOf s c.node).settleUntil ∧ -(nodeClip s c.node) ≤ c.raw ∧ c.raw ≤ nodeClip s c.node ∧ -(nodeClip s c.node) ≤ raw
      ∧ raw ≤ nodeClip s c.node) :=
  ⟨onNode measuring 192 fun n => { n with pairs := 15 }, ⟨0, 3, 192, 5, .pair 4 6⟩, 4, 6, by decide +kernel⟩

theorem witness_BanksSlicesAndDacs :
    (∃ (s : State) (b : Nat) (_ok : Bool), clocked s = true ∧ b < 2 ∧ (mbank s b).refOn = true ∧ (mbank s b).refReady = false
      ∧ (mbank s b).bankFail = false ∧ (mbank s b).refAt + 100000 ≤ s.time.gtc)
    ∧ (∃ (s : State) (b : Nat), b < 2 ∧ (mbank s b).bankFail = true ∧ (mbank s (1 - b)).bankFail = false ∧ (mbank s (1 - b)).takeover = false)
    ∧ (∃ (s : State) (b n : Nat) (ps : List (Int × Int)), clocked s = true ∧ b < 2 ∧ n < 243 ∧ ps.length = 16 ∧ (mbank s b).outSlice ≠ 15
      ∧ (mbank s b).refOn = true ∧ (mbank s b).bankFail = false ∧ (mbank s b).repairing = none ∧ (mbank s b).rotatedAt + 4000000 ≤ s.time.gtc)
    ∧ (∃ (s : State) (b : Nat) (_ok : Bool), clocked s = true ∧ b < 2 ∧ calibrating s b < 11 ∧ (mbank s b).bankFail = false ∧ (mbank s b).repairing = none
      ∧ s.meas.calRun = [])
    ∧ (∃ (s : State) (_v : Int) (_changed : Bool), clocked s = true ∧ s.fw.rind = .running ∧ s.cmp.dacNext < 344)
    ∧ (∃ (s : State) (b : Nat), clocked s = true ∧ b < 2 ∧ (mbank s b).refOn = true ∧ (mbank s b).refReady = false ∧ (mbank s b).bankFail = false
      ∧ (mbank s b).refAt + 100000 ≤ s.time.gtc ∧ s.time.gtc ≤ (mbank s b).refAt + 400000)
    ∧ (∃ (s : State) (b : Nat), clocked s = true ∧ b < 2 ∧ calibrating s b < 11 ∧ (mbank s b).bankFail = false ∧ (mbank s b).repairing = none
      ∧ s.meas.calRun = [])
    ∧ (∃ (s : State) (b : Nat) (_ok : Bool), clocked s = true ∧ b < 2 ∧ (mbank s b).repairing.isSome = true) :=
  ⟨⟨onBank work 1 fun b => { b with refOn := true }, 1, true, by decide +kernel⟩,
   ⟨onBank work 1 fun b => { b with bankFail := true }, 1, by decide +kernel⟩,
   ⟨measuring, 1, 242, List.replicate 16 (0, 0), by decide +kernel⟩,
   ⟨measuring, 1, true, by decide +kernel⟩,
   ⟨work, 0, false, by decide +kernel⟩,
   ⟨onBank work 1 fun b => { b with refOn := true, refAt := 3999999600000 }, 1, by decide +kernel⟩,
   ⟨measuring, 1, by decide +kernel⟩,
   ⟨onBank work 1 fun b => { b with repairing := some (3, 0) }, 1, true, by decide +kernel⟩⟩

theorem witness_HostStructuresAreRead :
    (∃ (s : State) (b : List Byte) (_pages : List (Nat × Nat)), clocked s = true ∧ polling s = true ∧ s.link.pollDue ≤ s.time.gtc
      ∧ s.link.dbGen ≠ some (w32 (leAt b 252 4)))
    ∧ (∃ (s : State) (b : List Byte) (_pages : List (Nat × Nat)), clocked s = true ∧ polling s = true ∧ s.link.pollDue ≤ s.time.gtc
      ∧ s.link.dbGen = some (w32 (leAt b 252 4)) ∧ s.link.parseAgain = false ∧ s.link.hostLost = false)
    ∧ (∃ (s : State) (_b : Option (List Byte)) (_pages : List (Nat × Nat)), clocked s = true ∧ s.time.gtc < s.link.pollDue)
    ∧ (∃ (s : State) (_pages : List (Nat × Nat)), clocked s = true ∧ polling s = true ∧ s.link.pollDue ≤ s.time.gtc)
    ∧ (∃ (s : State) (_tb : List Byte), clocked s = true ∧ polling s = true ∧ s.link.tableDue = true)
    ∧ (∃ (s : State) (q : Nat) (d : FetchedDescriptor) (op : Op), clocked s = true ∧ q < 16 ∧ fetchTurn s = some q ∧ s.vat.bad = []
      ∧ refsOf s (ringHolder q) = [] ∧ d.crcBad = false ∧ d.fault = false ∧ opOf (byteAt d.raw 0) = some op
      ∧ tagRefused s (parseSub q d.raw d.data) = false ∧ commonChecks s op (parseSub q d.raw d.data) = none)
    ∧ (∃ (s : State) (q : Nat) (d : FetchedDescriptor), clocked s = true ∧ q < 16 ∧ fetchTurn s = some q ∧ d.crcBad = true)
    ∧ (∃ (s : State) (q : Nat) (_ds : List FetchedDescriptor), clocked s = true ∧ q < 16 ∧ fetchTurn s ≠ some q) :=
  ⟨⟨work.onLink fun l => { l with setup := { l.setup with enable := true } }, List.replicate 256 0, [], by decide +kernel⟩,
   ⟨work.onLink fun l => { l with dbGen := some 0, setup := { l.setup with enable := true } }, List.replicate 256 0, [], by decide +kernel⟩,
   ⟨work.onLink fun l => { l with pollDue := 4000000000001 }, none, [], by decide +kernel⟩,
   ⟨work.onLink fun l => { l with setup := { l.setup with enable := true } }, [], by decide +kernel⟩,
   ⟨work.onLink fun l => { l with tableDue := true, setup := { l.setup with enable := true } }, List.replicate 3072 0, by decide +kernel⟩,
   ⟨(ringAt 15 { ring16 with host := 1 } (ringAt 31 ring16)).onLink fun l => { l with setup := { l.setup with enable := true }, dbGen := some 0 }, 15,
     { raw := 1 :: List.replicate 63 0, data := [] }, .nop, by decide +kernel⟩,
   ⟨(ringAt 15 { ring16 with host := 1 } (ringAt 31 ring16)).onLink fun l => { l with setup := { l.setup with enable := true }, dbGen := some 0 }, 15,
     { raw := 1 :: List.replicate 63 0, data := [], crcBad := true }, by decide +kernel⟩,
   ⟨work, 15, [], by decide +kernel⟩⟩

theorem witness_RingEntriesGoOut :
    (∃ (s : State) (q : Nat) (c : Completion) (rest : List Completion), clocked s = true ∧ q < 16 ∧ headBad s (ringHolder (16 + q)) = false
      ∧ ringServed s (16 + q) = true ∧ ringRoom s (16 + q) = true ∧ s.link.hostLost = false ∧ s.link.up = true ∧ Tbl.get [] s.link.cqHeld q = c :: rest
      ∧ c.sq < 16)
    ∧ (∃ (s : State) (r : Nat) (e : Event) (es : List Event) (rest : List (List Event)), clocked s = true ∧ r < 4
      ∧ headBad s (ringHolder (evIndex r)) = false ∧ ringServed s (evIndex r) = true ∧ ringRoom s (evIndex r) = true ∧ s.link.hostLost = false
      ∧ s.link.up = true ∧ Tbl.get [] s.link.evHeld r = (e :: es) :: rest)
    ∧ (∃ (s : State) (i : Nat), clocked s = true ∧ i < 44 ∧ irqEn s i = true ∧ 0 < (ringOf s i).coal
      ∧ (ringOf s i).coalAt + usGtc (ringOf s i).cfg.coalTime ≤ s.time.gtc)
    ∧ (∃ (s : State) (r : Nat) (e : Event) (es : List Event), clocked s = true ∧ r < 4 ∧ Tbl.get [] s.link.evOpen r = e :: es
      ∧ (16 ≤ es.length + 1 ∨ Tbl.get 0 s.link.evOpenAt r + (if s.power.mode = .doze then 6400 else 800) ≤ s.time.gtc))
    ∧ (∃ (s : State) (src : Nat), clocked s = true ∧ src < 256)
    ∧ (∃ (s : State) (r : Nat) (x : Stream), clocked s = true ∧ r < 8 ∧ streamAt s r = some x ∧ x.stopped = none ∧ 0 < x.pageBytes
      ∧ x.pageAt + (if s.power.mode = .doze then 4000000 else 400000) ≤ s.time.gtc ∧ entryWaits s r = false)
    ∧ (∃ (s : State) (r : Nat) (x : Stream), clocked s = true ∧ r < 8 ∧ streamAt s r = some x ∧ x.stopped = none ∧ 0 < x.pageBytes
      ∧ x.pageAt + (if s.power.mode = .doze then 4000000 else 400000) ≤ s.time.gtc ∧ entryWaits s r = true ∧ streamXfer s r = none)
    ∧ (∃ (s : State) (src period : Nat), clocked s = true ∧ src < 256 ∧ period = (bits (rateOf s src) 7 0 + 1) * 4000
      ∧ Tbl.get 0 s.router.refillAt src + period ≤ s.time.gtc) :=
  ⟨⟨(ringAt 16 { ring16 with host := 5 }).onLink fun l => { l with cqHeld := [(0, [completionOf (subm) stOk 0 0])] }, 0, completionOf (subm) stOk 0 0, [],
    by decide +kernel⟩,
   ⟨(ringAt (evIndex 3) { ring16 with host := 5 }).onLink fun l => { l with evHeld := [(3, [[event0]])] }, 3, event0, [], [], by decide +kernel⟩,
   ⟨ringAt 43 { ring16 with coal := 1, cfg := { entries := 16, flags := 8 } }, 43, by decide +kernel⟩,
   ⟨work.onLink fun l => { l with evOpen := [(3, [event0])] }, 3, event0, [], by decide +kernel⟩,
   ⟨work, 255, by decide +kernel⟩,
   ⟨work.onMeas fun m => { m with streams := [(7, { seqId := 0, pageBytes := 2048 })] }, 7, { seqId := 0, pageBytes := 2048 }, by decide +kernel⟩,
   ⟨((ringAt 39 ring16).onLink fun l => { l with ats := true }).onMeas fun m => { m with streams := [(7, { seqId := 0, pageBytes := 2048 })] }, 7,
     { seqId := 0, pageBytes := 2048 }, by decide +kernel⟩,
   ⟨work, 255, 20000, by decide +kernel⟩⟩

theorem witness_HostLossAndDmaFaults :
    (∃ (s : State), (polling s = true ∧ s.link.dbGen ≠ none ∧ s.link.silenceMs * 400000 < s.link.silent ∨ s.link.setup.enable = false
      ∧ pasteStarted s = true ∧ ∃ a, s.link.allowAt = some a ∧ a + 12000000000 ≤ s.time.gtc) ∧ clocked s = true ∧ s.link.hostLost = false)
    ∧ (∃ (s : State), clocked s = true ∧ (polling s = true → s.link.dbGen ≠ none → s.link.silent ≤ s.link.silenceMs * 400000) ∧ s.link.allowAt = none)
    ∧ (∃ (s : State) (target _addr : Nat) (_c : CommandRef), clocked s = true ∧ polling s = true ∧ (target = 48 ∨ target = 49))
    ∧ (∃ (s : State) (i _addr : Nat) (_c : CommandRef), clocked s = true ∧ s.link.up = true ∧ i < 44 ∧ ¬ (32 ≤ i ∧ i < 40) ∧ ringServed s i = true)
    ∧ (∃ (s : State) (r _addr : Nat) (_c : CommandRef) (x : Stream), clocked s = true ∧ s.link.up = true ∧ r < 8 ∧ ringServed s (stIndex r) = true
      ∧ (bit (ringOf s (stIndex r)).cfg.flags 1 = true ∨ s.link.ats = false) ∧ streamAt s r = some x ∧ x.stopped = none)
    ∧ (∃ (s : State) (_addr : Nat) (c : CommandRef) (f : Flight), clocked s = true ∧ s.link.up = true ∧ flightByRef s c = some f ∧ inTransfer f = true)
    ∧ (∃ (s : State) (op : Op) (sub : Submission), HostReady s op { sub with fault := false } ∧ sub.fault = true ∧ pinnedBuffer (flightFor s op sub) = true)
    ∧ (∃ (s : State) (c : CommandRef) (f : Flight) (a : Nat), clocked s = true ∧ flightByRef s c = some f ∧ f.phase = .waiting
      ∧ (usesBulk f.op = true ∨ usesHandover f.op = true) ∧ f.waitAt = some a ∧ a + 40000000 ≤ s.time.gtc)
    ∧ (∃ (s : State) (c : CommandRef), (∀ f a, flightByRef s c = some f → f.waitAt = some a → s.time.gtc < a + 40000000) ∧ clocked s = true) :=
  ⟨⟨work.onLink fun l => { l with allowAt := some 0 }, Or.inr ⟨by decide +kernel, by decide +kernel, 0, by decide +kernel⟩, by decide +kernel⟩,
   ⟨work.onLink fun l => { l with dbGen := some 0, silenceMs := 5, silent := 2000000, setup := { l.setup with enable := true } }, by decide +kernel⟩,
   ⟨work.onLink fun l => { l with setup := { l.setup with enable := true } }, 48, 0, ⟨0, 5, 0⟩, by decide +kernel⟩,
   ⟨ringAt 43 ring16, 43, 0, ⟨0, 5, 0⟩, by decide +kernel⟩,
   ⟨(ringAt 39 { ring16 with cfg := { entries := 16, flags := 2 } }).onMeas fun m => { m with streams := [(7, { seqId := 0 })] }, 7, 0, ⟨0, 5, 0⟩,
     { seqId := 0 }, by decide +kernel⟩,
   ⟨inFlight .logRead (subm) (.transfer 64), 0, ⟨0, 5, 0⟩, { id := 0, origin := .host, op := .logRead, sub := (subm), phase := .transfer 64 },
     by decide +kernel⟩,
   ⟨work, .telemSnapshot, { subm (unitHandle 3) [] 0 [] 64 with fault := true }, by decide +kernel⟩,
   ⟨work.onLink fun l => { l with flights := [{ id := 0, origin := .host, op := .logRead, sub := subm, phase := .waiting, waitAt := some 3999960000000 }] },
     ⟨0, 5, 0⟩, { id := 0, origin := .host, op := .logRead, sub := subm, phase := .waiting, waitAt := some 3999960000000 }, 3999960000000,
     by decide +kernel⟩,
   ⟨work.onLink fun l => { l with flights := [{ id := 0, origin := .host, op := .logRead, sub := subm, phase := .waiting, waitAt := some 3999960000001 }] },
     ⟨0, 5, 0⟩, (fun _ _ h1 h2 => by cases h1; cases h2; decide +kernel), by decide +kernel⟩⟩

theorem witness_TranslationsAndPages :
    (∃ (s : State) (k _bytes : Nat) (x : Xfer), clocked s = true ∧ Tbl.find s.link.xfers k = some x ∧ x.prg = none ∧ (x.flight.isSome = true ∨ ∃ y,
      streamAt s x.ring = some y ∧ y.tiles = [] ∧ pageDue s y = false))
    ∧ (∃ (s : State) (k _bytes : Nat) (x : Xfer) (y : Stream), clocked s = true ∧ Tbl.find s.link.xfers k = some x ∧ x.prg = none ∧ x.flight = none
      ∧ streamAt s x.ring = some y ∧ y.tiles = [] ∧ pageDue s y = true ∧ x.addr = entryAddr s (stIndex x.ring) (ringOf s (stIndex x.ring)).index)
    ∧ (∃ (s : State) (k _bytes : Nat) (x : Xfer) (f : Flight), clocked s = true ∧ Tbl.find s.link.xfers k = some x ∧ x.prg = none
      ∧ x.flight.bind (flightOf s) = some f ∧ f.op = .logRead ∧ f.origin = .host ∧ s.link.up = true ∧ x.done < x.data.length
      ∧ f.sub.bufAddr + x.data.length ≤ (f.sub.bufAddr + x.done) / 4096 * 4096 + 4096 ∧ x.addr = f.sub.bufAddr + x.done ∧ (∀ r ∈ x.tiles,
      unreadable s r = false))
    ∧ (∃ (s : State) (k : Nat) (x : Xfer), clocked s = true ∧ Tbl.find s.link.xfers k = some x ∧ x.prg = none ∧ mayPage s x = true
      ∧ s.link.prgs.length < 32)
    ∧ (∃ (s : State) (k : Nat) (x : Xfer) (f : Flight), clocked s = true ∧ Tbl.find s.link.xfers k = some x ∧ x.prg = none ∧ mayPage s x = false
      ∧ x.flight.bind (flightOf s) = some f ∧ f.origin = .host)
    ∧ (∃ (s : State) (k : Nat) (x : Xfer) (y : Stream), clocked s = true ∧ Tbl.find s.link.xfers k = some x ∧ x.prg = none ∧ mayPage s x = false
      ∧ x.flight = none ∧ streamAt s x.ring = some y ∧ y.stopped = none)
    ∧ (∃ (s : State) (g _code : Nat), clocked s = true ∧ g < 512 ∧ g ∉ s.link.prgs)
    ∧ (∃ (s : State) (g k : Nat) (x : Xfer), clocked s = true ∧ g < 512 ∧ g ∈ s.link.prgs ∧ xferOfPrg s g = some (k, x))
    ∧ (∃ (s : State) (g k : Nat) (x : Xfer) (f : Flight), clocked s = true ∧ g < 512 ∧ g ∈ s.link.prgs ∧ xferOfPrg s g = some (k, x)
      ∧ Tbl.find s.link.xfers k = some x ∧ x.flight.bind (flightOf s) = some f ∧ f.origin = .host)
    ∧ (∃ (s : State) (g code : Nat), clocked s = true ∧ g < 512 ∧ g ∈ s.link.prgs ∧ 2 ≤ code)
    ∧ (∃ (s : State) (g code k : Nat) (x : Xfer) (f : Flight), clocked s = true ∧ g < 512 ∧ g ∈ s.link.prgs ∧ 2 ≤ code ∧ s.link.xfers = [(k, x)]
      ∧ x.paused = true ∧ x.flight.bind (flightOf s) = some f ∧ f.origin = .host)
    ∧ (∃ (s : State) (g k : Nat) (x : Xfer) (f : Flight), clocked s = true ∧ g < 512 ∧ xferOfPrg s g = some (k, x) ∧ Tbl.find s.link.xfers k = some x
      ∧ x.flight.bind (flightOf s) = some f ∧ f.origin = .host ∧ x.prgAt + 400000000 ≤ s.time.gtc)
    ∧ (∃ (s : State) (_addr _bytes : Nat), clocked s = true)
    ∧ (∃ (s : State), clocked s = true ∧ s.link.up = true) :=
  ⟨⟨(inFlight .logRead (subm) (.transfer 0)).onLink fun l => { l with xfers := [(2, { flight := some 0, ring := 0, addr := 4096, done := 0, data := List.replicate 64 0 })] },
    2, 4096, { flight := some 0, ring := 0, addr := 4096, done := 0, data := List.replicate 64 0 }, by decide +kernel⟩,
   ⟨((ringAt 39 { ring16 with cfg := { base := 4096, entries := 16 } }).onLink fun l => { l with xfers := [(2, { flight := none, ring := 7, addr := 4096, done := 0 })] }).onMeas fun m => { m with streams := [(7, { seqId := 0, pageBytes := 3600 })] },
     2, 4096, { flight := none, ring := 7, addr := 4096, done := 0 }, { seqId := 0, pageBytes := 3600 }, by decide +kernel⟩,
   ⟨(inFlight .logRead (subm) (.transfer 0)).onLink fun l => { l with xfers := [(2, { flight := some 0, ring := 0, addr := 4096, done := 0, data := List.replicate 64 0 })] },
     2, 4096, { flight := some 0, ring := 0, addr := 4096, done := 0, data := List.replicate 64 0 },
     { id := 0, origin := .host, op := .logRead, sub := (subm), phase := .transfer 0 }, by decide +kernel⟩,
   ⟨(inFlight .logRead (subm) (.transfer 0)).onLink fun l => { l with xfers := [(2, { flight := some 0, ring := 0, addr := 4096, done := 0, data := List.replicate 64 0 })], pri := true },
     2, { flight := some 0, ring := 0, addr := 4096, done := 0, data := List.replicate 64 0 }, by decide +kernel⟩,
   ⟨(inFlight .logRead (subm) (.transfer 0)).onLink fun l => { l with xfers := [(2, { flight := some 0, ring := 0, addr := 4096, done := 0, data := List.replicate 64 0 })] },
     2, { flight := some 0, ring := 0, addr := 4096, done := 0, data := List.replicate 64 0 },
     { id := 0, origin := .host, op := .logRead, sub := (subm), phase := .transfer 0 }, by decide +kernel⟩,
   ⟨((inFlight .logRead (subm) (.transfer 0)).onLink fun l => { l with xfers := [(2, { flight := none, ring := 7, addr := 4096, done := 0 })] }).onMeas fun m => { m with streams := [(7, { seqId := 0 })] },
     2, { flight := none, ring := 7, addr := 4096, done := 0 }, { seqId := 0 }, by decide +kernel⟩,
   ⟨work, 511, 0, by decide +kernel⟩,
   ⟨(inFlight .logRead (subm) (.transfer 0)).onLink fun l => { l with xfers := [(2, { flight := some 0, ring := 0, addr := 4096, done := 0, data := List.replicate 64 0, prg := some 511 })], prgs := [511] },
     511, 2, { flight := some 0, ring := 0, addr := 4096, done := 0, data := List.replicate 64 0, prg := some 511 }, by decide +kernel⟩,
   ⟨(inFlight .logRead (subm) (.transfer 0)).onLink fun l => { l with xfers := [(2, { flight := some 0, ring := 0, addr := 4096, done := 0, data := List.replicate 64 0, prg := some 511 })], prgs := [511] },
     511, 2, { flight := some 0, ring := 0, addr := 4096, done := 0, data := List.replicate 64 0, prg := some 511 },
     { id := 0, origin := .host, op := .logRead, sub := (subm), phase := .transfer 0 }, by decide +kernel⟩,
   ⟨(inFlight .logRead (subm) (.transfer 0)).onLink fun l => { l with xfers := [(2, { flight := some 0, ring := 0, addr := 4096, done := 0, data := List.replicate 64 0, prg := some 511 })], prgs := [511] },
     511, 2, by decide +kernel⟩,
   ⟨(inFlight .logRead (subm) (.transfer 0)).onLink fun l => { l with xfers := [(2, { flight := some 0, ring := 0, addr := 4096, done := 0, data := List.replicate 64 0, paused := true })], prgs := [511] },
     511, 15, 2, { flight := some 0, ring := 0, addr := 4096, done := 0, data := List.replicate 64 0, paused := true },
     { id := 0, origin := .host, op := .logRead, sub := subm, phase := .transfer 0 }, by decide +kernel⟩,
   ⟨(inFlight .logRead (subm) (.transfer 0)).onLink fun l => { l with xfers := [(2, { flight := some 0, ring := 0, addr := 4096, done := 0, data := List.replicate 64 0, prg := some 511 })], prgs := [511] },
     511, 2, { flight := some 0, ring := 0, addr := 4096, done := 0, data := List.replicate 64 0, prg := some 511 },
     { id := 0, origin := .host, op := .logRead, sub := (subm), phase := .transfer 0 }, by decide +kernel⟩,
   ⟨work, 0, 4096, by decide +kernel⟩,
   ⟨work, by decide +kernel⟩⟩

theorem witness_HostInterfaceResets :
    (∃ (s : State) (c : Instr), clocked s = true ∧ s.link.flights.Pairwise (fun f g => f.id ≠ g.id) ∧ (c = .perstL true ∨ (c = .flr ∧ s.link.up = true)))
    ∧ (∃ (s : State), clocked s = true)
    ∧ (∃ (s : State) (_on : Bool), (s.power.booting = true ∨ s.power.clockFail = true))
    ∧ (∃ (s : State) (x : LinkInputs), clocked s = true ∧ s.link.perst = false ∧ 1 ≤ x.speed ∧ x.speed ≤ 3 ∧ 1 ≤ x.width ∧ x.width ≤ 2) :=
  ⟨⟨inFlight .logRead (subm) (.transfer 0), .flr, by decide +kernel⟩,
   ⟨work, by decide +kernel⟩,
   ⟨State.reset, true, by decide +kernel⟩,
   ⟨work.onLink fun l => { l with perst := false }, linkGen3, by decide +kernel⟩⟩

theorem witness_SpdmAnswers :
    (∃ (s : State), clocked s = true ∧ s.fw.rind = .running ∧ s.link.up = true)
    ∧ (∃ (s : State) (_f : Word32), clocked s = true ∧ s.fw.rind = .running ∧ s.link.up = true)
    ∧ (∃ (s : State) (_a _h : Word32), clocked s = true ∧ s.fw.rind = .running ∧ s.link.up = true)
    ∧ (∃ (s : State), clocked s = true ∧ s.fw.rind = .running ∧ s.link.up = true)
    ∧ (∃ (s : State) (off _n : Nat), clocked s = true ∧ s.fw.rind = .running ∧ s.link.up = true ∧ off ≤ Config.certificateChain.length)
    ∧ (∃ (s : State) (_nonce : List Byte), clocked s = true ∧ s.fw.rind = .running ∧ s.link.up = true)
    ∧ (∃ (s : State) (k : Nat) (_nonce : List Byte), clocked s = true ∧ s.fw.rind = .running ∧ s.link.up = true ∧ 1 ≤ k ∧ k ≤ 6)
    ∧ (∃ (s : State) (_code : Byte), clocked s = true ∧ s.fw.rind = .running ∧ s.link.up = true)
    ∧ (∃ (s : State), clocked s = true ∧ s.fw.rind = .running ∧ s.link.up = true)
    ∧ (∃ (s : State), clocked s = true ∧ s.fw.rind = .running ∧ s.link.up = true)
    ∧ (∃ (s : State) (k : Nat), clocked s = true ∧ s.fw.rind = .running ∧ s.link.up = true ∧ 2 ≤ k)
    ∧ (∃ (s : State) (slot off _n : Nat), clocked s = true ∧ s.fw.rind = .running ∧ s.link.up = true ∧ (slot ≠ 0 ∨ Config.certificateChain.length < off))
    ∧ (∃ (s : State) (slot : Nat) (_nonce : List Byte), clocked s = true ∧ s.fw.rind = .running ∧ s.link.up = true ∧ slot ≠ 0)
    ∧ (∃ (s : State) (_nonce : List Byte), clocked s = true ∧ s.fw.rind = .running ∧ s.link.up = true)
    ∧ (∃ (s : State) (_nonce : List Byte), clocked s = true ∧ s.fw.rind = .running ∧ s.link.up = true)
    ∧ (∃ (s : State) (k : Nat) (_nonce : List Byte), clocked s = true ∧ s.fw.rind = .running ∧ s.link.up = true ∧ 6 < k ∧ k ≠ 0xFF)
    ∧ (∃ (s : State) (c : Instr), (c = .getVersion ∨ (∃ f, c = .getCapabilities f) ∨ (∃ a h, c = .negotiateAlgorithms a h) ∨ c = .getDigests ∨ (∃ k o n,
      c = .getCertificate k o n) ∨ (∃ k n, c = .challenge k n) ∨ (∃ k n, c = .getMeasurements k n) ∨ (∃ b, c = .spdmUnsupportedRequest b) ∨ ∃ k,
      c = .doeDiscovery k) ∧ clocked s = true ∧ s.fw.rind = .running ∧ s.link.up = false) :=
  ⟨⟨work, by decide +kernel⟩,
   ⟨measuring, 0, by decide +kernel⟩,
   ⟨work, 0x90, 1, by decide +kernel⟩,
   ⟨work, by decide +kernel⟩,
   ⟨work, 0, 16, by decide +kernel⟩,
   ⟨work, [], by decide +kernel⟩,
   ⟨work, 6, [], by decide +kernel⟩,
   ⟨work, 0xE7, by decide +kernel⟩,
   ⟨profiled, by decide +kernel⟩,
   ⟨work, by decide +kernel⟩,
   ⟨work, 255, by decide +kernel⟩,
   ⟨work, 15, 0, 0, by decide +kernel⟩,
   ⟨work, 15, [], by decide +kernel⟩,
   ⟨measuring, [0], by decide +kernel⟩,
   ⟨work, [], by decide +kernel⟩,
   ⟨work, 254, [], by decide +kernel⟩,
   ⟨work.onLink fun l => { l with up := false }, .getVersion, Or.inl rfl, by decide +kernel⟩⟩

theorem witness_RegistersTakeWrites :
    (∃ (s : State), clocked s = true ∧ s.link.up = true)
    ∧ (∃ (s : State) (_v : Word32), clocked s = true ∧ s.link.up = true)
    ∧ (∃ (s : State) (src : Nat) (_v : Word16), clocked s = true ∧ s.link.up = true ∧ src < 256)
    ∧ (∃ (s : State) (k : Nat) (_v : Word32), clocked s = true ∧ s.link.up = true ∧ k < 64)
    ∧ (∃ (s : State), clocked s = true ∧ s.link.up = true)
    ∧ (∃ (s : State) (off : Nat) (bs : List Byte), clocked s = true ∧ s.link.up = true ∧ bs.length = 4 ∧ off + 4 ≤ 65536 ∧ writableReg off = some (off, 4))
    ∧ (∃ (s : State) (bs : List Byte), clocked s = true ∧ s.link.up = true ∧ bs.length = 4 ∧ s.link.setup.locked = false)
    ∧ (∃ (s : State) (bs : List Byte), clocked s = true ∧ s.link.up = true ∧ bs.length = 4 ∧ s.link.setup.locked = false ∧ s.link.setup.enable = false)
    ∧ (∃ (s : State) (bs : List Byte), clocked s = true ∧ s.link.up = true ∧ bs.length = 4)
    ∧ (∃ (s : State) (off : Nat) (_b : Byte), clocked s = true ∧ s.link.up = true ∧ writableReg off = some (off, 4) ∧ off < 65536)
    ∧ (∃ (s : State) (off : Nat) (bs : List Byte), clocked s = true ∧ off + bs.length ≤ 65536 ∧ (∀ i, i < bs.length → writableReg (off + i) = none))
    ∧ (∃ (_s : State) (off : Nat) (bs : List Byte), 65536 < off + bs.length)
    ∧ (∃ (s : State), clocked s = true ∧ s.link.up = true ∧ s.link.setup.locked = false ∧ s.link.setup.enable = false
      ∧ addr64 s.link.setup.rstLo s.link.setup.rstHi ≠ 0 ∧ addr64 s.link.setup.dbLo s.link.setup.dbHi ≠ 0)
    ∧ (∃ (s : State) (v : Word32), clocked s = true ∧ s.link.up = true ∧ v.toNat % 65536 = 0x4C4B ∧ s.link.setup.locked = false)
    ∧ (∃ (s : State) (src : Nat) (_v : Word16), clocked s = true ∧ s.link.up = true ∧ src < 256 ∧ sourceReserved src = false
      ∧ s.link.setup.locked = false) :=
  ⟨⟨work, by decide +kernel⟩,
   ⟨work, 0x4C4B, by decide +kernel⟩,
   ⟨work, 255, 0xFFFF, by decide +kernel⟩,
   ⟨work, 63, 0, by decide +kernel⟩,
   ⟨work, by decide +kernel⟩,
   ⟨work, 0x108, [0, 0, 0, 0], by decide +kernel⟩,
   ⟨work, [1, 2, 0, 0], by decide +kernel⟩,
   ⟨work, [0, 0x10, 0, 0], by decide +kernel⟩,
   ⟨work, [10, 0, 0, 0], by decide +kernel⟩,
   ⟨work, 0x108, 1, by decide +kernel⟩,
   ⟨work, 0, [1], by decide +kernel⟩,
   ⟨work, 65535, [0, 0], by decide +kernel⟩,
   ⟨work.onLink fun l => { l with setup := { l.setup with rstLo := 4096, dbLo := 8192 } }, by decide +kernel⟩,
   ⟨work, 0x4C4B, by decide +kernel⟩,
   ⟨work, 64, 0xFFFF, by decide +kernel⟩⟩

theorem witness_TimeFollowsTheHost :
    (∃ (s : State), clocked s = true ∧ s.fw.rind = .running ∧ s.link.up = true ∧ s.link.ptm = true ∧ s.time.auto = true ∧ s.time.dialogue = none)
    ∧ (∃ (s : State) (_ns d : Nat), clocked s = true ∧ s.fw.rind = .running ∧ s.time.dialogue = some d ∧ s.time.gtc < d + 4000000)
    ∧ (∃ (s : State) (_ns d : Nat), clocked s = true ∧ s.fw.rind = .running ∧ s.time.dialogue = some d ∧ d + 4000000 ≤ s.time.gtc)
    ∧ (∃ (s : State) (d : Nat), clocked s = true ∧ s.fw.rind = .running ∧ s.time.dialogue = some d)
    ∧ (∃ (s : State), clocked s = true ∧ s.fw.rind = .running)
    ∧ (∃ (s : State), clocked s = true ∧ s.fw.rind = .running ∧ s.link.up = true ∧ s.link.ptm = true ∧ s.time.auto = true ∧ s.time.dialogue = none
      ∧ s.time.dialogueAt + s.time.interval * 400000 ≤ s.time.gtc)
    ∧ (∃ (s : State) (ns d : Nat), clocked s = true ∧ s.fw.rind = .running ∧ s.time.dialogue = some d ∧ s.time.gtc < d + 4000000 ∧ s.time.synced = true
      ∧ (hostTicks ns - (s.time.gtc : Int)).natAbs ≤ s.time.stepLimit)
    ∧ (∃ (s : State), clocked s = true ∧ s.fw.rind = .running ∧ s.time.synced = true ∧ s.time.goodAt + holdover s ≤ s.time.gtc) :=
  ⟨⟨work.onLink fun l => { l with ptm := true }, by decide +kernel⟩,
   ⟨work.onTime fun t => { t with dialogue := some 3999996000001 }, 18446744073709551615, 3999996000001, by decide +kernel⟩,
   ⟨work.onTime fun t => { t with dialogue := some 3999996000000 }, 0, 3999996000000, by decide +kernel⟩,
   ⟨work.onTime fun t => { t with dialogue := some 0 }, 0, by decide +kernel⟩,
   ⟨work, by decide +kernel⟩,
   ⟨(work.onLink fun l => { l with ptm := true }).onTime fun t => { t with auto := true, dialogueAt := 0 }, by decide +kernel⟩,
   ⟨work.onTime fun t => { t with synced := true, dialogue := some 3999996000001 }, 10000000000000, 3999996000001, by decide +kernel⟩,
   ⟨work.onTime fun t => { t with synced := true, goodAt := 0 }, by decide +kernel⟩⟩

theorem witness_BusReads :
    (∃ (s : State) (cls : BusClass), BusServes s cls 0x00)
    ∧ (∃ (s : State), BusServes s .management 0x01)
    ∧ (∃ (s : State), BusServes s .diagnostic 0x01)
    ∧ (∃ (s : State) (cls : BusClass), BusServes s cls 0x02)
    ∧ (∃ (s : State) (cls : BusClass), BusServes s cls 0x08)
    ∧ (∃ (s : State) (cls : BusClass), BusServes s cls 0x11)
    ∧ (∃ (s : State) (cls : BusClass), BusServes s cls 0x21)
    ∧ (∃ (s : State) (cls : BusClass), BusServes s cls 0x50)
    ∧ (∃ (s : State) (cls : BusClass) (code : Byte), clocked s = true ∧ busServed s cls code.toNat = false) :=
  ⟨⟨work, .diagnostic, by decide +kernel⟩,
   ⟨work, by decide +kernel⟩,
   ⟨work, by decide +kernel⟩,
   ⟨work, .management, by decide +kernel⟩,
   ⟨work, .management, by decide +kernel⟩,
   ⟨work, .diagnostic, by decide +kernel⟩,
   ⟨work, .diagnostic, by decide +kernel⟩,
   ⟨work, .management, by decide +kernel⟩,
   ⟨work, .diagnostic, 0xFF, by decide +kernel⟩⟩

theorem witness_BusWrites :
    (∃ (s : State) (cls : BusClass) (w : BusWrite), BusTakes s cls 0x02 w ∧ w.bytes.length = 2)
    ∧ (∃ (s : State) (cls : BusClass) (w : BusWrite), BusServes s cls 0x10 ∧ PecAccepted s w ∧ w.bytes.length = 1)
    ∧ (∃ (s : State) (cls : BusClass) (w : BusWrite), BusServes s cls 0x20 ∧ PecAccepted s w ∧ w.bytes.length = 8)
    ∧ (∃ (s : State) (cls : BusClass) (w : BusWrite), BusTakes s cls 0x22 w ∧ w.bytes = [0x43] ∧ s.fw.paste = .serving)
    ∧ (∃ (s : State) (cls : BusClass) (w : BusWrite), BusTakes s cls 0x22 w ∧ w.bytes = [0x43] ∧ s.fw.paste ≠ .serving ∧ s.fw.rind = .running
      ∧ s.power.brownout = false ∧ s.cave.clearing = false)
    ∧ (∃ (s : State) (cls : BusClass) (w : BusWrite), BusTakes s cls 0x30 w ∧ w.bytes.length = 6)
    ∧ (∃ (s : State) (cls : BusClass) (w : BusWrite), BusTakes s cls 0x50 w ∧ w.bytes.length = 8)
    ∧ (∃ (s : State) (cls : BusClass) (w : BusWrite), BusServes s cls 0x10 ∧ w.bytes.length ≠ 1)
    ∧ (∃ (s : State) (cls : BusClass) (w : BusWrite), BusServes s cls 0x10 ∧ w.bytes.length = 1 ∧ w.pec = .bad)
    ∧ (∃ (s : State) (cls : BusClass) (_w : BusWrite), BusServes s cls 0x30 ∧ (busClass s cls).rState = 1)
    ∧ (∃ (s : State) (cls : BusClass) (w : BusWrite) (h : Word32) (op : Op), BusTakes s cls 0x30 w ∧ w.bytes.length = 6 ∧ byteAt w.bytes 4 ≤ 2
      ∧ h = w32 (leAt w.bytes 0 4) ∧ op = (if byteAt w.bytes 4 = 1 then .unitOn else .unitOff) ∧ checkHandle s op 0 h = none
      ∧ busControls s (handleUnit h) = true ∧ (s.fw.safeHold = true → op = .unitOff) ∧ (op.needsRind = true → s.fw.rind = .running))
    ∧ (∃ (s : State) (cls : BusClass) (w : BusWrite), BusTakes s cls 0x50 w ∧ w.bytes.length = 8 ∧ 4500 ≤ leAt w.bytes 0 4 ∧ leAt w.bytes 0 4 ≤ 9000
      ∧ leAt w.bytes 4 4 ≤ 16777215 ∧ s.fw.rind = .running ∧ s.power.brownout = false) :=
  ⟨⟨work, .management, ⟨[0, 1], .good⟩, by decide +kernel⟩,
   ⟨work, .diagnostic, ⟨[255], .good⟩, by decide +kernel⟩,
   ⟨work, .diagnostic, ⟨List.replicate 8 0, .good⟩, by decide +kernel⟩,
   ⟨work, .management, ⟨[0x43], .good⟩, by decide +kernel⟩,
   ⟨work.onFw fun f => { f with paste := .stopped }, .management, ⟨[0x43], .good⟩, by decide +kernel⟩,
   ⟨work, .management, ⟨List.replicate 6 0, .good⟩, by decide +kernel⟩,
   ⟨work, .management, ⟨List.replicate 8 0, .good⟩, by decide +kernel⟩,
   ⟨work, .management, ⟨[], .good⟩, by decide +kernel⟩,
   ⟨work, .management, ⟨[1], .bad⟩, by decide +kernel⟩,
   ⟨work.onBus fun b => { b with mgmt := { b.mgmt with rState := 1 } }, .management, ⟨[], .good⟩, by decide +kernel⟩,
   ⟨leafAt 3 fun l => { l with env := { l.env with busCtrl := true } }, .management, ⟨toLe (unitHandle 3).toNat 4 ++ [2, 0], .good⟩, unitHandle 3,
     .unitOff, by decide +kernel⟩,
   ⟨work, .management, ⟨toLe 9000 4 ++ toLe 16777215 4, .good⟩, by decide +kernel⟩⟩

theorem witness_BulkSessions :
    (∃ (s : State) (cls : BusClass) (w : BusWrite), BusTakes s cls 0x40 w ∧ w.bytes.length = 8)
    ∧ (∃ (s : State) (cls : BusClass) (w : BusWrite) (b : Bulk), BusTakes s cls 0x41 w ∧ 5 ≤ w.bytes.length ∧ w.bytes.length ≤ 244 ∧ s.bus.bulk = some b)
    ∧ (∃ (s : State) (cls : BusClass) (w : BusWrite) (b : Bulk), BusTakes s cls 0x42 w ∧ s.bus.bulk = some b ∧ w.bytes = [BitVec.ofNat 8 b.kind]
      ∧ b.kind ≤ 2 ∧ b.bytes.length = b.total ∧ bulkRefused s b.kind = false ∧ bulkState s b.kind = none ∧ (s.power.brownout = true → b.kind = 0)
      ∧ (∀ g ∈ s.link.flights, g.id < s.link.nextFlight))
    ∧ (∃ (s : State) (cls : BusClass) (w : BusWrite) (b : Bulk), BusTakes s cls 0x42 w ∧ s.bus.bulk = some b ∧ w.bytes = [BitVec.ofNat 8 b.kind]
      ∧ b.kind ≤ 2 ∧ b.bytes.length ≠ b.total)
    ∧ (∃ (s : State) (b : Bulk), clocked s = true ∧ s.bus.bulk = some b)
    ∧ (∃ (s : State) (cls : BusClass) (w : BusWrite), BusTakes s cls 0x40 w ∧ w.bytes.length = 8 ∧ bulkRefused s (byteAt w.bytes 0) = false
      ∧ byteAt w.bytes 0 ≤ 2 ∧ leAt w.bytes 4 4 ≤ bulkLimit (byteAt w.bytes 0))
    ∧ (∃ (s : State) (cls : BusClass) (w : BusWrite) (b : Bulk), BusTakes s cls 0x41 w ∧ 5 ≤ w.bytes.length ∧ w.bytes.length ≤ 244 ∧ s.bus.bulk = some b
      ∧ leAt w.bytes 0 4 = b.bytes.length ∧ b.bytes.length + (w.bytes.length - 4) ≤ b.total ∧ s.power.brownout = false
      ∧ (b.kind = 0 → tilesAvailable s 69 (tilesFor (b.bytes.length + (w.bytes.length - 4)) - b.tiles.length) = true))
    ∧ (∃ (s : State) (cls : BusClass) (w : BusWrite) (b : Bulk), BusTakes s cls 0x42 w ∧ s.bus.bulk = some b ∧ w.bytes = [0x00] ∧ b.kind = 0
      ∧ b.bytes.length = b.total ∧ bulkRefused s 0 = false ∧ s.fw.safeHold = false ∧ s.fw.rind = .running ∧ (∀ g ∈ s.link.flights,
      g.id < s.link.nextFlight))
    ∧ (∃ (s : State) (b : Bulk), clocked s = true ∧ s.bus.bulk = some b ∧ b.at_ + 24000000000 ≤ s.time.gtc)
    ∧ (∃ (s : State) (cls : BusClass) (w : BusWrite) (b : Bulk), BusTakes s cls 0x42 w ∧ s.bus.bulk = some b ∧ w.bytes = [BitVec.ofNat 8 b.kind]
      ∧ (b.kind = 0 ∨ b.kind = 2) ∧ b.bytes.length = b.total ∧ bulkRefused s b.kind = false ∧ s.fw.safeHold = true) :=
  ⟨⟨work, .management, ⟨List.replicate 8 0, .good⟩, by decide +kernel⟩,
   ⟨work.onBus fun b => { b with bulk := some { kind := 0, total := 8, bytes := [], at_ := 0 } }, .management, ⟨List.replicate 244 0, .good⟩,
     { kind := 0, total := 8, bytes := [], at_ := 0 }, by decide +kernel⟩,
   ⟨work.onBus fun b => { b with bulk := some { kind := 0, total := 0, bytes := [], at_ := 0 } }, .management, ⟨[0], .good⟩,
     { kind := 0, total := 0, bytes := [], at_ := 0 }, by decide +kernel⟩,
   ⟨work.onBus fun b => { b with bulk := some { kind := 2, total := 8, bytes := [], at_ := 0 } }, .management, ⟨[2], .good⟩,
     { kind := 2, total := 8, bytes := [], at_ := 0 }, by decide +kernel⟩,
   ⟨work.onBus fun b => { b with bulk := some { kind := 2, total := 8, bytes := [], at_ := 0 } }, { kind := 2, total := 8, bytes := [], at_ := 0 },
     by decide +kernel⟩,
   ⟨work.onFw fun f => { f with rind := .absent }, .management, ⟨[1, 0, 0, 0, 0, 16, 0, 0], .good⟩, by decide +kernel⟩,
   ⟨work.onBus fun b => { b with bulk := some { kind := 0, total := 240, bytes := [], at_ := 0 } }, .management, ⟨List.replicate 244 0, .good⟩,
     { kind := 0, total := 240, bytes := [], at_ := 0 }, by decide +kernel⟩,
   ⟨work.onBus fun b => { b with bulk := some { kind := 0, total := 0, bytes := [], at_ := 0 } }, .management, ⟨[0], .good⟩,
     { kind := 0, total := 0, bytes := [], at_ := 0 }, by decide +kernel⟩,
   ⟨work.onBus fun b => { b with bulk := some { kind := 2, total := 8, bytes := [], at_ := 0 } }, { kind := 2, total := 8, bytes := [], at_ := 0 },
     by decide +kernel⟩,
   ⟨(work.onFw fun f => { f with safeHold := true }).onBus fun b => { b with bulk := some { kind := 0, total := 0, bytes := [], at_ := 0 } }, .management,
     ⟨[0], .good⟩, { kind := 0, total := 0, bytes := [], at_ := 0 }, by decide +kernel⟩⟩

theorem witness_NotifiesAndHangs :
    (∃ (s : State), clocked s = true ∧ s.bus.notifyDue = true ∧ s.bus.backoffUntil ≤ s.time.gtc ∧ s.bus.hangUntil ≤ s.time.gtc)
    ∧ (∃ (s : State) (o : NotifyOutcome), clocked s = true ∧ s.bus.notifyDue = true ∧ s.bus.backoffUntil ≤ s.time.gtc ∧ s.bus.hangUntil ≤ s.time.gtc
      ∧ o ≠ .sent)
    ∧ (∃ (s : State) (n : Nat), clocked s = true ∧ s.bus.hangUntil ≤ s.time.gtc ∧ 1 ≤ n ∧ n ≤ 9)
    ∧ (∃ (s : State), clocked s = true ∧ s.bus.hangUntil ≤ s.time.gtc)
    ∧ (∃ (s : State), clocked s = true ∧ s.bus.hangUntil ≤ s.time.gtc)
    ∧ (∃ (s : State), clocked s = true)
    ∧ (∃ (s : State), clocked s = true) :=
  ⟨⟨work.onBus fun b => { b with notifyDue := true }, by decide +kernel⟩,
   ⟨work.onBus fun b => { b with notifyDue := true }, .nacked, by decide +kernel⟩,
   ⟨work, 9, by decide +kernel⟩,
   ⟨work, by decide +kernel⟩,
   ⟨measuring, by decide +kernel⟩,
   ⟨work, by decide +kernel⟩,
   ⟨profiled, by decide +kernel⟩⟩

theorem witness_DescriptorsAreChecked :
    (∃ (s : State) (_op : Op) (sub : Submission), clocked s = true ∧ s.fw.paste = .serving ∧ sub.wf = true) :=
  ⟨work, .nop, subm, by decide +kernel⟩

theorem witness_UnitsTurnOnAndOff :
    (∃ (s : State) (sub : Submission), HostReady s .unitOn sub ∧ servedNow s (maskOf s (handleUnit sub.handle)) = false
      ∧ isGroup s (handleUnit sub.handle) = false ∧ Leads s (evalUnit s (handleUnit sub.handle)))
    ∧ (∃ (s : State) (sub : Submission), HostReady s .unitOn sub ∧ handleUnit sub.handle ≠ 255 ∧ servedNow s (maskOf s (handleUnit sub.handle)) = false
      ∧ isGroup s (handleUnit sub.handle) = true)
    ∧ (∃ (s : State) (sub : Submission), HostReady s .unitOn sub ∧ handleUnit sub.handle = 255)
    ∧ (∃ (s : State) (sub : Submission), HostReady s .unitOff sub ∧ servedNow s (maskOf s (handleUnit sub.handle)) = false
      ∧ isGroup s (handleUnit sub.handle) = false ∧ Leads s (evalUnit s (handleUnit sub.handle)))
    ∧ (∃ (s : State) (sub : Submission), HostReady s .unitOff sub ∧ servedNow s (maskOf s (handleUnit sub.handle)) = false
      ∧ isGroup s (handleUnit sub.handle) = true)
    ∧ (∃ (s : State) (op : Op) (sub : Submission), (op = .unitOn ∨ op = .unitOff) ∧ HostReady s op sub ∧ handleUnit sub.handle ≠ 255
      ∧ servedNow s (maskOf s (handleUnit sub.handle)) = true)
    ∧ (∃ (s : State) (f : Flight) (st : Nat), f ∈ s.link.flights ∧ (∀ g ∈ s.link.flights, g.id = f.id → g = f) ∧ f.phase = .applied st ∧ f.origin = .host
      ∧ f.op ≠ .unitRetire ∧ f.op ≠ .unitRestore) :=
  ⟨⟨profiled, subm (unitHandle 3), by decide +kernel⟩,
   ⟨hoopsAt [(130, groupHoop)], subm (unitHandle 130), by decide +kernel⟩,
   ⟨work, subm (unitHandle 255), by decide +kernel⟩,
   ⟨hoopsAt [(140, parallelHoop)], subm (unitHandle 140), by decide +kernel⟩,
   ⟨work, subm (unitHandle 255) [] 4, by decide +kernel⟩,
   ⟨serve work [3], .unitOff, subm (unitHandle 3), by decide +kernel⟩,
   ⟨inFlight .unitOff (subm (unitHandle 3)) (.applied 0), { id := 0, origin := .host, op := .unitOff, sub := subm (unitHandle 3), phase := .applied 0 }, 0,
     by decide +kernel⟩⟩

theorem witness_PwmAndLockCommands :
    (∃ (s : State) (sub : Submission) (e : Nat), HostReady s .unitPwm sub ∧ targets s (handleUnit sub.handle) = [e] ∧ leafKind e = .channel ∧ Leads s e
      ∧ (vleaf s e).st ≠ .retired ∧ servedNow s (maskOf s (handleUnit sub.handle)) = false ∧ flag sub 2 = false ∧ 16000 ≤ arg sub 28 4
      ∧ arg sub 28 4 ≤ 8000000 ∧ (∀ b, b < 4 → gateLoad s b ([e].filter fun e => bankOf e == b) (arg sub 28 4) ≤ 8000))
    ∧ (∃ (s : State) (sub : Submission) (e : Nat), HostReady s .unitPwm sub ∧ targets s (handleUnit sub.handle) = [e] ∧ leafKind e = .channel ∧ Leads s e
      ∧ (vleaf s e).st ≠ .retired ∧ servedNow s (maskOf s (handleUnit sub.handle)) = false ∧ flag sub 2 = true)
    ∧ (∃ (s : State) (sub : Submission) (e : Nat), HostReady s .unitPwm sub ∧ e ∈ targets s (handleUnit sub.handle) ∧ leafKind e ≠ .channel)
    ∧ (∃ (s : State) (sub : Submission), HostReady s .unitPwm sub ∧ (∀ e ∈ targets s (handleUnit sub.handle), leafKind e = .channel) ∧ flag sub 2 = false
      ∧ (arg sub 28 4 < 16000 ∨ 8000000 < arg sub 28 4))
    ∧ (∃ (s : State) (sub : Submission) (e : Nat), HostReady s .unitResetLock sub ∧ targets s (handleUnit sub.handle) = [e] ∧ Leads s e
      ∧ (vleaf s e).st = .lock ∧ servedNow s (maskOf s (handleUnit sub.handle)) = false ∧ (damageLocked s e = true → flag sub 2 = true
      ∧ (leafOf s e).env.damageOverride = true))
    ∧ (∃ (s : State) (sub : Submission), HostReady s .unitPwm sub ∧ (∀ e ∈ targets s (handleUnit sub.handle), leafKind e = .channel)
      ∧ liveTargets s (handleUnit sub.handle) ≠ [] ∧ servedNow s (maskOf s (handleUnit sub.handle)) = false ∧ flag sub 2 = true)
    ∧ (∃ (s : State) (sub : Submission), HostReady s .unitResetLock sub ∧ (∃ e ∈ targets s (handleUnit sub.handle), (vleaf s e).st = .lock)
      ∧ (∀ e ∈ targets s (handleUnit sub.handle), damageLocked s e = false) ∧ servedNow s (maskOf s (handleUnit sub.handle)) = false)
    ∧ (∃ (s : State) (sub : Submission), HostReady s .unitResetLock sub ∧ (∀ e ∈ targets s (handleUnit sub.handle), (vleaf s e).st ≠ .lock))
    ∧ (∃ (s : State) (sub : Submission) (e : Nat), HostReady s .unitResetLock sub ∧ e ∈ targets s (handleUnit sub.handle) ∧ damageLocked s e = true
      ∧ (flag sub 2 = false ∨ (leafOf s e).env.damageOverride = false)) :=
  ⟨⟨work, subm (unitHandle 3) [0x80, 0x3E], 3, by decide +kernel⟩,
   ⟨hoopsAt [(140, parallelHoop)], subm (unitHandle 140) [] 4, 8, by decide +kernel⟩,
   ⟨work, subm (unitHandle 70), 70, by decide +kernel⟩,
   ⟨work, subm (unitHandle 3) [0x7F, 0x3E], by decide +kernel⟩,
   ⟨leafAt 3 fun l => { l with st := .lock }, subm (unitHandle 3), 3, by decide +kernel⟩,
   ⟨leafAt 3 fun l => { l with st := .on }, subm (unitHandle 3) [] 4, by decide +kernel⟩,
   ⟨leafAt 3 fun l => { l with st := .lock }, subm (unitHandle 3), by decide +kernel⟩,
   ⟨work, subm (unitHandle 3), by decide +kernel⟩,
   ⟨leafAt 3 fun l => { l with st := .lock, sub := 1, diag := { l.diag with verdict := 1 } }, subm (unitHandle 3), 3, by decide +kernel⟩⟩

theorem witness_TableChangesArePrepared :
    (∃ (s : State) (sub : Submission), HostReady s .hoopForm sub ∧ arg sub 29 1 = 1 ∧ 1 ≤ hoopCount sub ∧ hoopCount sub ≤ 32)
    ∧ (∃ (s : State) (sub : Submission), HostReady s .hoopForm sub ∧ arg sub 29 1 = 1 ∧ 1 ≤ hoopCount sub ∧ hoopCount sub ≤ 32
      ∧ hoopCheck s .hoopForm sub.flags 255 (some (arg sub 28 1)) (hoopTable sub) (hoopHandles sub) = none)
    ∧ (∃ (s : State) (sub : Submission), HostReady s .hoopEdit sub ∧ kindOf s (handleUnit sub.handle) = .group ∧ 1 ≤ hoopCount sub ∧ hoopCount sub ≤ 32
      ∧ hoopCheck s .hoopEdit sub.flags (handleUnit sub.handle) none (hoopTable sub) (hoopHandles sub) = none)
    ∧ (∃ (s : State) (sub : Submission), HostReady s .hoopDissolve sub ∧ kindOf s (handleUnit sub.handle) = .group
      ∧ sequenceNear s (handleUnit sub.handle) = false)
    ∧ (∃ (s : State) (sub : Submission), HostReady s .unitRetire sub ∧ flag sub 2 = false ∧ isGroup s (handleUnit sub.handle) = false
      ∧ ((vleaf s (evalUnit s (handleUnit sub.handle))).st = .off ∨ (vleaf s (evalUnit s (handleUnit sub.handle))).st = .lock))
    ∧ (∃ (s : State) (sub : Submission), HostReady s .unitRestore sub ∧ flag sub 2 = false ∧ isGroup s (handleUnit sub.handle) = false
      ∧ (vleaf s (evalUnit s (handleUnit sub.handle))).st = .retired ∧ (∀ m ∈ groupOf s (evalUnit s (handleUnit sub.handle)), retiredDamaged s m = false))
    ∧ (∃ (s : State) (sub : Submission), HostReady s .hoopForm sub ∧ arg sub 29 1 = 0)
    ∧ (∃ (s : State) (sub : Submission), HostReady s .hoopEdit sub ∧ kindOf s (handleUnit sub.handle) = .group ∧ 1 ≤ hoopCount sub ∧ hoopCount sub ≤ 32)
    ∧ (∃ (s : State) (sub : Submission), HostReady s .hoopDissolve sub)
    ∧ (∃ (s : State) (sub : Submission), HostReady s .unitRetire sub ∧ flag sub 2 = false ∧ isGroup s (handleUnit sub.handle) = false)
    ∧ (∃ (s : State) (sub : Submission) (n : Nat) (h : Hoop), HostReady s .unitRetire sub ∧ flag sub 2 = true ∧ handleUnit sub.handle < 64
      ∧ parallelOf s (handleUnit sub.handle) = some (n, h))
    ∧ (∃ (s : State) (sub : Submission) (n : Nat) (h : Hoop), HostReady s .unitRestore sub ∧ flag sub 2 = true ∧ handleUnit sub.handle < 64
      ∧ parallelOf s (handleUnit sub.handle) = some (n, h))
    ∧ (∃ (s : State) (sub : Submission), HostReady s .unitRestore sub ∧ flag sub 2 = false ∧ isGroup s (handleUnit sub.handle) = false)
    ∧ (∃ (s : State) (op : Op) (sub : Submission), (op = .unitRetire ∨ op = .unitRestore) ∧ HostReady s op sub
      ∧ isGroup s (handleUnit sub.handle) = true) :=
  ⟨⟨work, subm (unitHandle 255) [130, 1, 1] 0 (List.replicate 12 0) 12, by decide +kernel⟩,
   ⟨work, subm (unitHandle 255) [130, 1, 1] 0 ([3, 0, 1, 0, 0, 0, 100, 0] ++ toLe (unitHandle 3).toNat 4) 12, by decide +kernel⟩,
   ⟨hoopsAt [(130, groupHoop)], subm (unitHandle 130) [0, 1, 1] 0 ([3, 0, 1, 0, 0, 0, 100, 0] ++ toLe (unitHandle 3).toNat 4) 12, by decide +kernel⟩,
   ⟨hoopsAt [(130, groupHoop)], subm (unitHandle 130), by decide +kernel⟩,
   ⟨work, subm (unitHandle 3), by decide +kernel⟩,
   ⟨leafAt 3 fun l => { l with st := .retired }, subm (unitHandle 3), by decide +kernel⟩,
   ⟨work, subm (unitHandle 255), by decide +kernel⟩,
   ⟨hoopsAt [(130, groupHoop)], subm (unitHandle 130) [0, 0, 32] 0 (List.replicate 384 0) 384, by decide +kernel⟩,
   ⟨hoopsAt [(130, groupHoop)], subm (unitHandle 130), by decide +kernel⟩,
   ⟨work, subm (unitHandle 3), by decide +kernel⟩,
   ⟨hoopsAt [(140, parallelHoop)], subm (unitHandle 9) [] 4, 140, parallelHoop, by decide +kernel⟩,
   ⟨hoopsAt [(140, parallelHoop)], subm (unitHandle 9) [] 4, 140, parallelHoop, by decide +kernel⟩,
   ⟨work, subm (unitHandle 3), by decide +kernel⟩,
   ⟨hoopsAt [(130, groupHoop)], .unitRestore, subm (unitHandle 130), by decide +kernel⟩⟩

theorem witness_HostCommandsComplete :
    (∃ (s : State) (sub : Submission), HostReady s .unitOn sub ∧ servedNow s (maskOf s (handleUnit sub.handle)) = false
      ∧ isGroup s (handleUnit sub.handle) = false ∧ Leads s (evalUnit s (handleUnit sub.handle)) ∧ (vleaf s (evalUnit s (handleUnit sub.handle))).st = .off
      ∧ startRefusal s (evalUnit s (handleUnit sub.handle)) = none ∧ damagedMember s (evalUnit s (handleUnit sub.handle)) = false)
    ∧ (∃ (s : State) (sub : Submission), HostReady s .unitOff sub ∧ servedNow s (maskOf s (handleUnit sub.handle)) = false
      ∧ isGroup s (handleUnit sub.handle) = false ∧ Leads s (evalUnit s (handleUnit sub.handle))
      ∧ (vleaf s (evalUnit s (handleUnit sub.handle))).st.active = true)
    ∧ (∃ (s : State) (sub : Submission), HostReady s .unitConfigWrite sub ∧ flag sub 2 = false ∧ isGroup s (handleUnit sub.handle) = false
      ∧ 1 ≤ (configPairs sub).length ∧ (configPairs sub).length ≤ 64 ∧ servedNow s (maskOf s (handleUnit sub.handle)) = false
      ∧ firstFault (startOf s .unitConfigWrite sub) (handleUnit sub.handle) (targets s (handleUnit sub.handle)) (configPairs sub) = none)
    ∧ (∃ (s : State) (sub : Submission), HostReady s .unitConfigRead sub ∧ (configBlock s (handleUnit sub.handle)).length ≤ sub.bufLen)
    ∧ (∃ (s : State) (sub : Submission), HostReady s .telemSnapshot sub ∧ flag sub 2 = false ∧ (snapshotBytes s sub).length ≤ sub.bufLen)
    ∧ (∃ (s : State) (sub : Submission), (∀ a, sub.bufAddr ≤ a → a < sub.bufAddr + sub.bufLen → translated s a = true) ∧ HostReady s .logRead sub
      ∧ s.link.up = true ∧ 1 ≤ arg sub 32 4 ∧ arg sub 32 4 ≤ 8192 ∧ (logBytes s sub).length ≤ sub.bufLen
      ∧ tilesAvailable s 69 (tilesFor (logBytes s sub).length) = true)
    ∧ (∃ (s : State) (sub : Submission), (∀ a, sub.bufAddr ≤ a → a < sub.bufAddr + sub.bufLen → translated s a = true) ∧ HostReady s .captureRead sub
      ∧ s.link.up = true ∧ arg sub 28 1 ≤ 3 ∧ (capOf s (arg sub 28 1)).state = .held
      ∧ (captureBytes (arg sub 28 1) (capOf s (arg sub 28 1))).length ≤ sub.bufLen ∧ (∀ r ∈ refsOf s (64 + arg sub 28 1), unreadable s r = false))
    ∧ (∃ (s : State) (sub : Submission), HostReady s .diagRun sub ∧ arg sub 28 1 = 0 ∧ 1376 ≤ sub.bufLen)
    ∧ (∃ (s : State) (sub : Submission), HostReady s .diagRun sub ∧ arg sub 28 1 = 1 ∧ 65536 ≤ sub.bufLen)
    ∧ (∃ (s : State) (sub : Submission), HostReady s .diagRun sub ∧ arg sub 28 1 = 2 ∧ 1136 ≤ sub.bufLen) :=
  ⟨⟨profiled, subm (unitHandle 3), by decide +kernel⟩,
   ⟨leafAt 3 fun l => { l with st := .on }, subm (unitHandle 3), by decide +kernel⟩,
   ⟨work, subm (unitHandle 3) ([1, 0, 0, 0] ++ toLe fTArm 2 ++ [0, 0] ++ toLe 1000 4), by decide +kernel⟩,
   ⟨work, subm (unitHandle 3) [] 0 [] 1024, by decide +kernel⟩,
   ⟨work, subm (unitHandle 3) [] 0 [] 64, by decide +kernel⟩,
   ⟨work, subm 0 [0, 0, 0, 0, 0, 0x20] 0 [] 64, (fun _ _ _ => rfl), by decide +kernel⟩,
   ⟨(work.onMeas fun m => { m with captures := [(3, { state := .held })] }), subm 0 [3] 0 [] 64, (fun _ _ _ => rfl), by decide +kernel⟩,
   ⟨work, subm 0 [] 0 [] 1376, by decide +kernel⟩,
   ⟨work, subm 0 [1] 0 [] 65536, by decide +kernel⟩,
   ⟨work, subm 0 [2] 0 [] 1136, by decide +kernel⟩⟩

theorem witness_ConfigurationIsWrittenAndRead :
    (∃ (s : State) (sub : Submission) (e id : Nat) (v : Word32), HostReady s .unitConfigWrite sub ∧ flag sub 2 = false
      ∧ targets s (handleUnit sub.handle) = [e] ∧ isGroup s (handleUnit sub.handle) = false ∧ Leads s e
      ∧ servedNow s (maskOf s (handleUnit sub.handle)) = false ∧ configPairs sub = [(id, v)]
      ∧ firstFault (startOf s .unitConfigWrite sub) (handleUnit sub.handle) [e] [(id, v)] = none)
    ∧ (∃ (s : State) (sub : Submission) (ts : List Nat), HostReady s .unitConfigWrite sub ∧ flag sub 2 = false ∧ handleUnit sub.handle ≠ 255
      ∧ ts = (if isGroup s (handleUnit sub.handle) then liveTargets s (handleUnit sub.handle) else targets s (handleUnit sub.handle)) ∧ ts ≠ []
      ∧ (∀ e ∈ ts, Leads s e) ∧ servedNow s (maskOf s (handleUnit sub.handle)) = false ∧ 1 ≤ (configPairs sub).length ∧ (configPairs sub).length ≤ 64
      ∧ firstFault (startOf s .unitConfigWrite sub) (handleUnit sub.handle) ts (configPairs sub) = none)
    ∧ (∃ (s : State) (sub : Submission), HostReady s .unitConfigWrite sub ∧ flag sub 2 = false ∧ isGroup s (handleUnit sub.handle) = true
      ∧ handleUnit sub.handle ≠ 255 ∧ liveTargets s (handleUnit sub.handle) = [] ∧ 1 ≤ (configPairs sub).length ∧ (configPairs sub).length ≤ 64
      ∧ firstFault (startOf s .unitConfigWrite sub) (handleUnit sub.handle) [] (configPairs sub) = none)
    ∧ (∃ (s : State) (sub : Submission) (k : Nat) (v : Word32), HostReady s .unitConfigWrite sub ∧ flag sub 2 = false ∧ handleUnit sub.handle = 255 ∧ k < 6
      ∧ configPairs sub = [(0x0600 + k, v)] ∧ servedNow s (maskOf s 255) = false
      ∧ firstFault (startOf s .unitConfigWrite sub) 255 (liveTargets s 255) [(0x0600 + k, v)] = none)
    ∧ (∃ (s : State) (sub : Submission) (st i : Nat), HostReady s .unitConfigWrite sub ∧ flag sub 2 = false ∧ 1 ≤ (configPairs sub).length
      ∧ (configPairs sub).length ≤ 64
      ∧ firstFault (startOf s .unitConfigWrite sub) (handleUnit sub.handle) (if isGroup s (handleUnit sub.handle) then liveTargets s (handleUnit sub.handle) else targets s (handleUnit sub.handle)) (configPairs sub) = some (st,
      i))
    ∧ (∃ (s : State) (sub : Submission), HostReady s .unitConfigWrite sub ∧ flag sub 2 = false
      ∧ ((configPairs sub).length < 1 ∨ 64 < (configPairs sub).length))
    ∧ (∃ (s : State) (sub : Submission) (k : Nat) (w : WmRec) (clear : Bool), HostReady s .unitConfigWrite sub ∧ flag sub 2 = true
      ∧ configMonitors sub = [(k, w, clear)] ∧ wmOk k w = true)
    ∧ (∃ (s : State) (sub : Submission), HostReady s .unitConfigWrite sub ∧ flag sub 2 = true ∧ 1 ≤ (configMonitors sub).length
      ∧ (configMonitors sub).length ≤ 32)
    ∧ (∃ (s : State) (sub : Submission), HostReady s .unitConfigRead sub) :=
  ⟨⟨work, subm (unitHandle 3) [1, 0, 0, 0, 0x01, 0x03, 0, 0, 10, 0, 0, 0], 3, 0x301, 10, by decide +kernel⟩,
   ⟨work, subm (unitHandle 3) ([1, 0, 0, 0] ++ toLe fTArm 2 ++ [0, 0] ++ toLe 1000 4), [3], by decide +kernel⟩,
   ⟨hoopsAt [(130, groupHoop)] (onLeaf (leafAt 3 fun l => { l with st := .retired }) 4 fun l => { l with st := .retired }), subm (unitHandle 130) ([1, 0,
     0, 0] ++ toLe fTArm 2 ++ [0, 0] ++ toLe 1000 4), by decide +kernel⟩,
   ⟨work, subm (unitHandle 255) [1, 0, 0, 0, 5, 6, 0, 0, 10, 0, 0, 0], 5, 10, by decide +kernel⟩,
   ⟨work, subm (unitHandle 3) [1, 0, 0, 0, 0xFF, 0xFF], 14, 0, by decide +kernel⟩,
   ⟨work, subm (unitHandle 3), by decide +kernel⟩,
   ⟨work, subm (unitHandle 255) [1] 4 (List.replicate 16 0) 16, 0, (parseWm (List.replicate 16 0) 0).2.1, false, by decide +kernel⟩,
   ⟨work, subm (unitHandle 255) [1] 4 (List.replicate 16 0) 16, by decide +kernel⟩,
   ⟨work, subm (unitHandle 3) [] 0 [] 1024, by decide +kernel⟩⟩

theorem witness_RecordsAreCopiedOut :
    (∃ (s : State) (sub : Submission), HostReady s .telemSnapshot sub ∧ flag sub 2 = false ∧ sub.bufLen < (snapshotBytes s sub).length)
    ∧ (∃ (s : State) (sub : Submission), HostReady s .telemSnapshot sub ∧ flag sub 2 = true
      ∧ ((urgentNodes sub).length = 0 ∨ 8 < (urgentNodes sub).length ∨ ∃ n ∈ urgentNodes sub, 240 ≤ n ∧ n ≠ 242))
    ∧ (∃ (s : State) (sub : Submission), HostReady s .telemSnapshot sub ∧ flag sub 2 = true ∧ 1 ≤ (urgentNodes sub).length ∧ (urgentNodes sub).length ≤ 8
      ∧ (∀ n ∈ urgentNodes sub, n < 240 ∨ n = 242))
    ∧ (∃ (s : State) (sub : Submission), HostReady s .logRead sub ∧ (arg sub 32 4 < 1 ∨ 8192 < arg sub 32 4))
    ∧ (∃ (s : State) (sub : Submission), HostReady s .logRead sub ∧ 1 ≤ arg sub 32 4 ∧ arg sub 32 4 ≤ 8192 ∧ sub.bufLen < (logBytes s sub).length)
    ∧ (∃ (s : State) (sub : Submission), HostReady s .logRead sub ∧ 1 ≤ arg sub 32 4 ∧ arg sub 32 4 ≤ 8192 ∧ (logBytes s sub).length ≤ sub.bufLen
      ∧ tilesAvailable s 69 (tilesFor (logBytes s sub).length) = false)
    ∧ (∃ (s : State) (sub : Submission), HostReady s .logRead sub ∧ s.link.up = true ∧ 1 ≤ arg sub 32 4 ∧ arg sub 32 4 ≤ 8192
      ∧ (logBytes s sub).length ≤ sub.bufLen ∧ tilesAvailable s 69 (tilesFor (logBytes s sub).length) = true ∧ translated s sub.bufAddr = false)
    ∧ (∃ (s : State) (sub : Submission), HostReady s .captureRead sub)
    ∧ (∃ (s : State) (sub : Submission), HostReady s .captureRead sub ∧ arg sub 28 1 ≤ 3 ∧ (capOf s (arg sub 28 1)).state = .held
      ∧ sub.bufLen < (captureBytes (arg sub 28 1) (capOf s (arg sub 28 1))).length)
    ∧ (∃ (s : State) (sub : Submission), HostReady s .captureRead sub ∧ s.link.up = true ∧ arg sub 28 1 ≤ 3 ∧ (capOf s (arg sub 28 1)).state = .held
      ∧ (captureBytes (arg sub 28 1) (capOf s (arg sub 28 1))).length ≤ sub.bufLen ∧ (∀ r ∈ refsOf s (64 + arg sub 28 1), unreadable s r = false)
      ∧ translated s sub.bufAddr = false)
    ∧ (∃ (s : State) (sub : Submission) (i : Nat) (l : List Nat), HostReady s .captureRead sub ∧ s.link.up = true ∧ s.link.ats = false ∧ arg sub 28 1 ≤ 3
      ∧ (capOf s (arg sub 28 1)).state = .held ∧ (captureBytes (arg sub 28 1) (capOf s (arg sub 28 1))).length ≤ sub.bufLen
      ∧ 1 ≤ (capOf s (arg sub 28 1)).nodes.length ∧ lostRowsOf s (arg sub 28 1) (capOf s (arg sub 28 1)) = i :: l)
    ∧ (∃ (s : State) (sub : Submission), HostReady s .diagRun sub) :=
  ⟨⟨work, subm (unitHandle 255) [] 0 [] 64, by decide +kernel⟩,
   ⟨work, subm (unitHandle 3) [] 4 [] 64, by decide +kernel⟩,
   ⟨work, subm (unitHandle 3) [8] 4 [] 96, by decide +kernel⟩,
   ⟨work, subm 0 [] 0 [] 64, by decide +kernel⟩,
   ⟨work.onCave fun c => { c with ring := [(5, caveRec)] }, subm 0 [0, 0, 0, 0, 0, 0x20] 0 [] 64, by decide +kernel⟩,
   ⟨work.onVat fun v => { v with quotas := [(69, (0, 0))] }, subm 0 [0, 0, 0, 0, 0, 0x20] 0 [] 64, by decide +kernel⟩,
   ⟨work.onLink fun l => { l with ats := true }, subm 0 [0, 0, 0, 0, 0, 0x20] 0 [] 64, by decide +kernel⟩,
   ⟨work, subm 0 [2] 0 [] 1000000, by decide +kernel⟩,
   ⟨work.onMeas fun m => { m with captures := [(3, { state := .held, nodes := [0], rows := [[0]] })] }, subm 0 [3] 0 [] 64, by decide +kernel⟩,
   ⟨(work.onMeas fun m => { m with captures := [(3, { state := .held })] }).onLink fun l => { l with ats := true }, subm 0 [3] 0 [] 64, by decide +kernel⟩,
   ⟨(setTag (work.onMeas fun m => { m with captures := [(3, { state := .held, nodes := [0], rows := [[0]] })] }) 7000 { state := .closed, holder := 67, gen := 1 }).onVat fun v => { v with held := [(67, [(7000, 1)])], bad := [7000] },
     subm 0 [3] 0 [] 128, 0, [], by decide +kernel⟩,
   ⟨work, subm 0 [2] 0 [] 1136, by decide +kernel⟩⟩

theorem witness_SequencesStreamsAndCaptures :
    (∃ (s : State) (sub : Submission) (q : Sequence), HostReady s .streamStart sub ∧ arg sub 28 1 ≤ 7 ∧ arg sub 29 1 ≤ 7
      ∧ Tbl.find s.meas.seqs (arg sub 28 1) = some q)
    ∧ (∃ (s : State) (sub : Submission) (q : Sequence), HostReady s .streamStart sub ∧ arg sub 28 1 ≤ 7 ∧ arg sub 29 1 ≤ 7
      ∧ Tbl.find s.meas.seqs (arg sub 28 1) = some q ∧ ringServed s (stIndex (arg sub 29 1)) = true ∧ streamOf s (arg sub 28 1) = none
      ∧ streamAt s (arg sub 29 1) = none)
    ∧ (∃ (s : State) (sub : Submission) (x : Stream) (c : Nat), HostReady s .streamStop sub ∧ arg sub 28 1 ≤ 7 ∧ streamAt s (arg sub 28 1) = some x
      ∧ x.stopped = some c)
    ∧ (∃ (s : State) (sub : Submission) (x : Stream), HostReady s .streamStop sub ∧ arg sub 28 1 ≤ 7 ∧ streamAt s (arg sub 28 1) = some x
      ∧ x.stopped = none)
    ∧ (∃ (s : State) (sub : Submission) (id : Nat) (q : Sequence), q = parseSeq sub.data ∧ HostReady s .seqDefine sub ∧ id = byteAt sub.data 0
      ∧ (16 + q.nodes.length + 3) / 4 * 4 ≤ sub.bufLen ∧ seqInRange id q = true ∧ bankLoad s q.bank id + seqLoad q.spacing ≤ loadLimit s q.bank
      ∧ streamOf s id = none)
    ∧ (∃ (s : State) (sub : Submission), HostReady s .seqTrigger sub ∧ arg sub 28 1 ≤ 7)
    ∧ (∃ (s : State) (sub : Submission), HostReady s .captureArm sub ∧ flag sub 3 = false ∧ captureInRange s sub = true
      ∧ ((capOf s (arg sub 28 1)).state = .empty ∨ (capOf s (arg sub 28 1)).state = .armed))
    ∧ (∃ (s : State) (sub : Submission), HostReady s .streamStart sub ∧ arg sub 28 1 ≤ 7 ∧ arg sub 29 1 ≤ 7 ∧ Tbl.find s.meas.seqs (arg sub 28 1) = none)
    ∧ (∃ (s : State) (sub : Submission), HostReady s .streamStop sub ∧ arg sub 28 1 ≤ 7)
    ∧ (∃ (s : State) (sub : Submission), HostReady s .seqDefine sub)
    ∧ (∃ (s : State) (sub : Submission), HostReady s .seqTrigger sub)
    ∧ (∃ (s : State) (sub : Submission), HostReady s .captureArm sub ∧ flag sub 3 = false)
    ∧ (∃ (s : State) (sub : Submission), HostReady s .captureArm sub ∧ flag sub 3 = true ∧ arg sub 28 1 ≤ 3)
    ∧ (∃ (s : State) (sub : Submission), HostReady s .streamStart sub ∧ (7 < arg sub 28 1 ∨ 7 < arg sub 29 1)) :=
  ⟨⟨work.onMeas fun m => { m with seqs := [(7, seq1 none)] }, subm 0 [7, 7], seq1 none, by decide +kernel⟩,
   ⟨ringAt 39 ring16 (work.onMeas fun m => { m with seqs := [(7, seq1 none)] }), subm 0 [7, 7], seq1 none, by decide +kernel⟩,
   ⟨work.onMeas fun m => { m with streams := [(7, { seqId := 7, stopped := some 2 })] }, subm 0 [7], { seqId := 7, stopped := some 2 }, 2,
     by decide +kernel⟩,
   ⟨work.onMeas fun m => { m with streams := [(7, { seqId := 7 })] }, subm 0 [7], { seqId := 7 }, by decide +kernel⟩,
   ⟨work, subm 0 [] 0 [7, 0, 0, 0, 1, 0, 1, 0, 0, 0, 0, 0, 0, 0, 0, 0, 5, 0, 0, 0] 20, 7, parseSeq [7, 0, 0, 0, 1, 0, 1, 0, 0, 0, 0, 0, 0, 0, 0, 0, 5, 0,
     0, 0], rfl, by decide +kernel⟩,
   ⟨work, subm 0 [7], by decide +kernel⟩,
   ⟨work, subm (unitHandle 3) ([3, 1, 0, 0] ++ List.replicate 12 0 ++ [0]), by decide +kernel⟩,
   ⟨work, subm 0 [7, 7], by decide +kernel⟩,
   ⟨work, subm 0 [7], by decide +kernel⟩,
   ⟨work, subm 0 [] 0 (List.replicate 20 0) 20, by decide +kernel⟩,
   ⟨work, subm 0 [7], by decide +kernel⟩,
   ⟨work, subm 0 [3], by decide +kernel⟩,
   ⟨work, subm 0 [3] 8, by decide +kernel⟩,
   ⟨work, subm 0 [8], by decide +kernel⟩⟩

theorem witness_DeviceCommands :
    (∃ (s : State) (sub : Submission), HostReady s .nop sub)
    ∧ (∃ (s : State) (sub : Submission), HostReady s .fence sub)
    ∧ (∃ (s : State) (sub : Submission), HostReady s .abort sub ∧ flightByRef s (abortTarget sub) = none
      ∧ ¬ (abortTarget sub = { sq := sub.sq, tag := sub.tag, gen := sub.gen }))
    ∧ (∃ (s : State) (sub : Submission) (g : Flight), HostReady s .abort sub ∧ flightByRef s (abortTarget sub) = some g ∧ g.op ≠ .abort)
    ∧ (∃ (s : State) (sub : Submission), HostReady s .logClear sub ∧ s.cave.clearing = false ∧ s.power.brownout = false)
    ∧ (∃ (s : State) (sub : Submission), (∀ rc, s.fw.recipe = some rc → ∀ x ∈ rc.rules, ¬ (x.code = evClear ∧ x.source = 116)) ∧ HostReady s .logClear sub
      ∧ s.cave.clearing = false ∧ s.power.brownout = false)
    ∧ (∃ (s : State) (sub : Submission), HostReady s .logClear sub ∧ s.cave.clearing = false ∧ s.power.brownout = true)
    ∧ (∃ (s : State) (sub : Submission), HostReady s .powerState sub)
    ∧ (∃ (s : State) (sub : Submission), HostReady s .powerState sub ∧ arg sub 28 1 ≤ 1 ∧ targetMode (arg sub 28 1) ≠ s.power.mode
      ∧ loadRunning s s.link.nextFlight = false ∧ s.power.next = none)
    ∧ (∃ (s : State) (sub : Submission), HostReady s .powerState sub ∧ arg sub 28 1 = 2 ∧ loadRunning s s.link.nextFlight = false ∧ s.power.next = none
      ∧ parkRefused s = false)
    ∧ (∃ (s : State) (sub : Submission), HostReady s .timeSync sub ∧ s.link.ptm = true ∧ s.time.dialogue = none)
    ∧ (∃ (s : State) (sub : Submission), HostReady s .calRun sub ∧ arg sub 28 1 ≤ 2 ∧ sub.handle = 0 ∧ calSlices s (arg sub 28 1) ≠ [])
    ∧ (∃ (s : State) (sub : Submission), HostReady s .timeSync sub)
    ∧ (∃ (s : State) (sub : Submission), HostReady s .calRun sub ∧ arg sub 28 1 ≤ 2 ∧ sub.handle = 0)
    ∧ (∃ (s : State) (sub : Submission), HostReady s .calRun sub ∧ arg sub 28 1 = 3 ∧ sub.handle ≠ 0)
    ∧ (∃ (s : State) (sub : Submission), HostReady s .logClear sub ∧ s.cave.clearing = true ∧ s.power.brownout = false) :=
  ⟨⟨work, subm, by decide +kernel⟩,
   ⟨work, subm, by decide +kernel⟩,
   ⟨work, subm 0 [1], by decide +kernel⟩,
   ⟨inFlight .unitOn { subm (unitHandle 3) with tag := 6, time := 5000000000000 } .scheduled, subm 0 [0, 0, 6],
     { id := 0, origin := .host, op := .unitOn, sub := { subm (unitHandle 3) with tag := 6, time := 5000000000000 }, phase := .scheduled },
     by decide +kernel⟩,
   ⟨work, subm, by decide +kernel⟩,
   ⟨work, subm, (fun _ h => nomatch h), by decide +kernel⟩,
   ⟨work.onPower fun p => { p with brownout := true }, subm, by decide +kernel⟩,
   ⟨work, subm 0 [2], by decide +kernel⟩,
   ⟨work, subm 0 [1], by decide +kernel⟩,
   ⟨work, subm 0 [2], by decide +kernel⟩,
   ⟨work.onLink fun l => { l with ptm := true }, subm 0 [] 0 [] 32, by decide +kernel⟩,
   ⟨work, subm 0 [2], by decide +kernel⟩,
   ⟨work, subm 0 [] 0 [] 32, by decide +kernel⟩,
   ⟨work, subm 0 [2], by decide +kernel⟩,
   ⟨work, subm (unitHandle 3) [3], by decide +kernel⟩,
   ⟨work.onCave fun c => { c with clearing := true }, subm, by decide +kernel⟩⟩

theorem witness_BundlesAndImagesAreLoaded :
    (∃ (s : State) (sub : Submission), HostReady s .profileLoad sub ∧ loadRunning s s.link.nextFlight = false)
    ∧ (∃ (s : State) (sub : Submission), HostReady s .recipeLoad sub ∧ loadRunning s s.link.nextFlight = false)
    ∧ (∃ (s : State) (sub : Submission), (∀ a, sub.bufAddr ≤ a → a < sub.bufAddr + sub.bufLen → translated s a = true) ∧ HostReady s .fwStage sub
      ∧ s.link.up = true ∧ stageRefusal s (flightFor s .fwStage sub) = none ∧ tilesAvailable s 69 (tilesFor sub.bufLen) = true)
    ∧ (∃ (s : State) (sub : Submission), (∀ a, sub.bufAddr ≤ a → a < sub.bufAddr + sub.bufLen → translated s a = true) ∧ HostReady s .fwStage sub
      ∧ s.link.up = true ∧ arg sub 28 1 ≤ 1 ∧ arg sub 32 4 % 4096 = 0 ∧ sub.bufLen ≤ 262144 ∧ arg sub 32 4 + sub.bufLen ≤ slotSize (arg sub 28 1)
      ∧ flag sub 2 = false ∧ (∀ g ∈ s.link.flights, g.op ≠ .fwStage) ∧ tilesAvailable s 69 (tilesFor sub.bufLen) = true)
    ∧ (∃ (s : State) (sub : Submission), HostReady s .fwStage sub ∧ s.link.up = true ∧ stageRefusal s (flightFor s .fwStage sub) = none
      ∧ tilesAvailable s 69 (tilesFor sub.bufLen) = true ∧ translated s sub.bufAddr = false)
    ∧ (∃ (s : State) (sub : Submission), HostReady s .fwStage sub
      ∧ (1 < arg sub 28 1 ∨ arg sub 32 4 % 4096 ≠ 0 ∨ 262144 < sub.bufLen ∨ slotSize (arg sub 28 1) < arg sub 32 4 + sub.bufLen))
    ∧ (∃ (s : State) (op : Op) (sub : Submission) (i : ImageInfo), (op = .fwActivate ∨ op = .fwRollback) ∧ HostReady s op sub ∧ arg sub 28 1 = 0
      ∧ loadRunning s s.link.nextFlight = false ∧ (pasteSlotOf s.nvm (inactiveSlot s 0)).verified = some i ∧ needTiles i ≤ s.vat.pasteTiles
      ∧ i.handoverMin ≤ (pasteSlotOf s.nvm s.fw.pasteSlot).verified.elim 0 (·.handoverVersion) ∧ s.nvm.pasteFloor ≤ i.version
      ∧ tilesAvailable s 5 512 = true)
    ∧ (∃ (s : State) (op : Op) (sub : Submission), (op = .fwActivate ∨ op = .fwRollback) ∧ HostReady s op sub ∧ arg sub 28 1 = 0
      ∧ (pasteSlotOf s.nvm (inactiveSlot s 0)).verified = none)
    ∧ (∃ (s : State) (op : Op) (sub : Submission) (i : ImageInfo) (k : Nat), (op = .fwActivate ∨ op = .fwRollback)
      ∧ k = (if op = .fwActivate then inactiveSlot s 1 else 1 - s.nvm.rindSel) ∧ HostReady s op sub ∧ arg sub 28 1 = 1
      ∧ loadRunning s s.link.nextFlight = false ∧ (imageSlot s.nvm 1 k).verified = some i ∧ s.nvm.rindFloor ≤ i.version)
    ∧ (∃ (s : State) (sub : Submission) (i : ImageInfo), HostReady s .fwActivate sub ∧ arg sub 28 1 = 1 ∧ loadRunning s s.link.nextFlight = false
      ∧ (imageSlot s.nvm 1 (inactiveSlot s 1)).verified = some i)
    ∧ (∃ (s : State) (sub : Submission) (i : ImageInfo), HostReady s .fwRollback sub ∧ arg sub 28 1 = 1 ∧ loadRunning s s.link.nextFlight = false
      ∧ (imageSlot s.nvm 1 (1 - s.nvm.rindSel)).verified = some i) :=
  ⟨⟨work, subm 0 [] 0 (List.replicate 160 0) 160, by decide +kernel⟩,
   ⟨work, subm 0 [] 0 (List.replicate 160 0) 160, by decide +kernel⟩,
   ⟨work, subm 0 [] 4 [] 4096, (fun _ _ _ => rfl), by decide +kernel⟩,
   ⟨work, subm 0 [] 0 [] 4096, (fun _ _ _ => rfl), by decide +kernel⟩,
   ⟨work.onLink fun l => { l with ats := true }, subm 0 [1] 0 [] 4096, by decide +kernel⟩,
   ⟨work, subm 0 [2] 0 [] 4096, by decide +kernel⟩,
   ⟨work.onNvm fun n => { n with paste0 := { verified := some {} }, paste1 := { verified := some {} } }, .fwRollback, subm, {}, by decide +kernel⟩,
   ⟨work.onNvm fun n => { n with paste0 := {}, paste1 := {} }, .fwActivate, subm, by decide +kernel⟩,
   ⟨work.onNvm fun n => { n with rind0 := { verified := some {} }, rind1 := { verified := some {} } }, .fwRollback, subm 0 [1], {}, 1, by decide +kernel⟩,
   ⟨work.onNvm fun n => { n with rind0 := { verified := some {} }, rind1 := { verified := some {} } }, subm 0 [1], {}, by decide +kernel⟩,
   ⟨work.onNvm fun n => { n with rind0 := { verified := some {} }, rind1 := { verified := some {} } }, subm 0 [1], {}, by decide +kernel⟩⟩

theorem witness_TicksMoveTime :
    (∃ (s : State) (_inp : TickInputs), clocked s = true)
    ∧ (∃ (s : State) (_inp : TickInputs), clocked s = false) :=
  ⟨⟨work, noTick, by decide +kernel⟩,
   ⟨State.reset, noTick, by decide +kernel⟩⟩

theorem witness_ScheduledActionsAreTaken :
    let due (s : State) (f : Flight) : Prop := s.link.flights.find? (fun g => g.phase == .scheduled && decide (g.sub.time ≤ s.time.gtc)) = some f
      ∧ f.origin = .host ∧ f.sub.time ≠ 0
    (∃ (s : State) (f : Flight), clocked s = true ∧ due s f ∧ f.sub.time + usGtc s.time.lateTol < s.time.gtc)
    ∧ (∃ (s : State) (f : Flight) (st : Nat), clocked s = true ∧ due s f ∧ s.time.gtc ≤ f.sub.time + usGtc s.time.lateTol ∧ check3 s f.op f.sub = some st)
    ∧ (∃ (s : State) (f : Flight), clocked s = true ∧ due s f ∧ s.time.gtc ≤ f.sub.time + usGtc s.time.lateTol ∧ f.op = .unitOff
      ∧ check3 s f.op f.sub = none ∧ (∀ r ∈ f.tiles, unreadable s r = false) ∧ servedNow s (maskOf s (handleUnit f.sub.handle)) = false
      ∧ isGroup s (handleUnit f.sub.handle) = false ∧ Leads s (evalUnit s (handleUnit f.sub.handle)))
    ∧ (∃ (s : State), clocked s = true ∧ (∀ f ∈ s.link.flights, f.phase = .scheduled → s.time.gtc < f.sub.time)) :=
  ⟨⟨inFlight .unitOff { subm (unitHandle 3) with time := 1 } .scheduled,
    { id := 0, origin := .host, op := .unitOff, sub := { subm (unitHandle 3) with time := 1 }, phase := .scheduled }, by decide +kernel⟩,
   ⟨State.onPress (inFlight .unitOff { subm (unitHandle 3) with time := 4000000000000 } .scheduled) fun p => { p with gens := [(3, 2)] },
     { id := 0, origin := .host, op := .unitOff, sub := { subm (unitHandle 3) with time := 4000000000000 }, phase := .scheduled }, stStaleHandle,
     by decide +kernel⟩,
   ⟨inFlight .unitOff { subm (unitHandle 3) with time := 4000000000000 } .scheduled,
     { id := 0, origin := .host, op := .unitOff, sub := { subm (unitHandle 3) with time := 4000000000000 }, phase := .scheduled }, by decide +kernel⟩,
   ⟨inFlight .unitOff { subm (unitHandle 3) with time := 4000000000001 } .scheduled, by decide +kernel⟩⟩

theorem witness_HoopTableSwaps :
    let waits (s : State) (e : Edit) (f : Flight) (rest : List PendingEdit) : Prop := clocked s = true ∧ f.origin = .host ∧ swapWaits s e = false ∧ ∃ hs,
      s.press.edits = { flight := f.id, edit := e, handles := hs } :: rest ∧ flightOf s f.id = some f
      ∧ swapRefusal { s with press := { s.press with edits := rest } } f { flight := f.id, edit := e, handles := hs } = none
    (∃ (s : State) (e : PendingEdit) (rest : List PendingEdit), clocked s = true ∧ s.press.edits = e :: rest ∧ swapWaits s e.edit = true)
    ∧ (∃ (s : State) (e : PendingEdit) (rest : List PendingEdit) (f : Flight) (r : Nat × Option Word32), clocked s = true ∧ s.press.edits = e :: rest
      ∧ swapWaits s e.edit = false ∧ flightOf s e.flight = some f ∧ f.origin = .host
      ∧ swapRefusal { s with press := { s.press with edits := rest } } f e = some r)
    ∧ (∃ (s : State) (n k : Nat) (table : List SeqEntry) (f : Flight) (rest : List PendingEdit), waits s (.form n table) f rest ∧ formNumber s n = .ok k
      ∧ (∀ e ∈ table, e.member < 71))
    ∧ (∃ (s : State) (n : Nat) (table : List SeqEntry) (h : Hoop) (f : Flight) (rest : List PendingEdit), waits s (.edit n table) f rest
      ∧ hoopOf s n = some h ∧ h.table ≠ table ∧ (∀ e ∈ table, e.member < 71) ∧ (∀ u ∈ h.members, u < 71))
    ∧ (∃ (s : State) (n : Nat) (h : Hoop) (f : Flight) (rest : List PendingEdit), waits s (.dissolve n) f rest ∧ hoopOf s n = some h
      ∧ hoopOf s h.parent = none ∧ (∀ u ∈ h.members, u < 71))
    ∧ (∃ (s : State) (u : Nat) (f : Flight) (rest : List PendingEdit), waits s (.retire u) f rest ∧ Solo s u)
    ∧ (∃ (s : State) (u : Nat) (f : Flight) (rest : List PendingEdit), waits s (.restore u) f rest ∧ Solo s u)
    ∧ (∃ (s : State) (u : Nat) (f : Flight) (rest : List PendingEdit), waits s (.retire u) f rest ∧ isGroup s u = false)
    ∧ (∃ (s : State) (u : Nat) (f : Flight) (rest : List PendingEdit), waits s (.restore u) f rest ∧ isGroup s u = false)
    ∧ (∃ (s : State) (n m : Nat) (h : Hoop) (f : Flight) (rest : List PendingEdit), waits s (.retireMember n m) f rest ∧ hoopOf s n = some h ∧ n ≠ m
      ∧ (vleaf s h.slot).st ≠ .lock)
    ∧ (∃ (s : State) (n m : Nat) (h : Hoop) (f : Flight) (rest : List PendingEdit), waits s (.restoreMember n m) f rest ∧ hoopOf s n = some h ∧ n ≠ m)
    ∧ (∃ (s : State) (f : Flight) (st : Nat), f ∈ s.link.flights ∧ (∀ g ∈ s.link.flights, g.id = f.id → g = f) ∧ f.phase = .applied st ∧ f.origin = .host
      ∧ (f.op = .unitRetire ∨ f.op = .unitRestore)) :=
  ⟨⟨editing .unitRetire (subm (unitHandle 3)) (.retire 3) [] (serve work [3]), { flight := 0, edit := .retire 3, handles := [] }, [], by decide +kernel⟩,
   ⟨editing .unitRetire (subm (unitHandle 3)) (.retire 3) [] (leafAt 3 fun l => { l with st := .on }), { flight := 0, edit := .retire 3, handles := [] },
     [], { id := 0, origin := .host, op := .unitRetire, sub := subm (unitHandle 3), phase := .swap }, (stState, none), by decide +kernel⟩,
   ⟨editing .hoopForm (subm (unitHandle 255)) (.form 130 [⟨3, 0, true, 0, 100⟩]) [unitHandle 3] (work), 130, 130, [⟨3, 0, true, 0, 100⟩],
     { id := 0, origin := .host, op := .hoopForm, sub := subm (unitHandle 255), phase := .swap }, [], ⟨by decide +kernel, by decide +kernel,
     by decide +kernel, _, rfl, by decide +kernel⟩, rfl, by decide +kernel⟩,
   ⟨editing .hoopEdit (subm (unitHandle 130)) (.edit 130 [⟨3, 0, true, 0, 100⟩]) [unitHandle 3] (hoopsAt [(130, groupHoop)]), 130, [⟨3, 0, true, 0, 100⟩],
     groupHoop, { id := 0, origin := .host, op := .hoopEdit, sub := subm (unitHandle 130), phase := .swap }, [], ⟨by decide +kernel, by decide +kernel,
     by decide +kernel, _, rfl, by decide +kernel⟩, by decide +kernel⟩,
   ⟨editing .hoopDissolve (subm (unitHandle 130)) (.dissolve 130) [] (hoopsAt [(130, groupHoop)]), 130, groupHoop,
     { id := 0, origin := .host, op := .hoopDissolve, sub := subm (unitHandle 130), phase := .swap }, [], ⟨by decide +kernel, by decide +kernel,
     by decide +kernel, _, rfl, by decide +kernel⟩, by decide +kernel⟩,
   ⟨editing .unitRetire (subm (unitHandle 3)) (.retire 3) [] (work), 3,
     { id := 0, origin := .host, op := .unitRetire, sub := subm (unitHandle 3), phase := .swap }, [], ⟨by decide +kernel, by decide +kernel,
     by decide +kernel, _, rfl, by decide +kernel⟩, by decide +kernel⟩,
   ⟨editing .unitRestore (subm (unitHandle 3)) (.restore 3) [] (leafAt 3 fun l => { l with st := .retired }), 3,
     { id := 0, origin := .host, op := .unitRestore, sub := subm (unitHandle 3), phase := .swap }, [], ⟨by decide +kernel, by decide +kernel,
     by decide +kernel, _, rfl, by decide +kernel⟩, by decide +kernel⟩,
   ⟨editing .unitRetire (subm (unitHandle 140)) (.retire 140) [] (hoopsAt [(140, parallelHoop)]), 140,
     { id := 0, origin := .host, op := .unitRetire, sub := subm (unitHandle 140), phase := .swap }, [], ⟨by decide +kernel, by decide +kernel,
     by decide +kernel, _, rfl, by decide +kernel⟩, by decide +kernel⟩,
   ⟨editing .unitRestore (subm (unitHandle 140)) (.restore 140) [] (hoopsAt [(140,
     parallelHoop)] (onLeaf (leafAt 8 fun l => { l with st := .retired }) 9 fun l => { l with st := .retired })), 140,
     { id := 0, origin := .host, op := .unitRestore, sub := subm (unitHandle 140), phase := .swap }, [], ⟨by decide +kernel, by decide +kernel,
     by decide +kernel, _, rfl, by decide +kernel⟩, by decide +kernel⟩,
   ⟨editing .unitRetire (subm (unitHandle 9) [] 4) (.retireMember 140 9) [] (hoopsAt [(140, parallelHoop)]), 140, 9, parallelHoop,
     { id := 0, origin := .host, op := .unitRetire, sub := subm (unitHandle 9) [] 4, phase := .swap }, [], ⟨by decide +kernel, by decide +kernel,
     by decide +kernel, _, rfl, by decide +kernel⟩, by decide +kernel⟩,
   ⟨editing .unitRestore (subm (unitHandle 9) [] 4) (.restoreMember 140 9) [] (hoopsAt [(140,
     parallelHoop)] (leafAt 9 fun l => { l with st := .retired })), 140, 9, parallelHoop,
     { id := 0, origin := .host, op := .unitRestore, sub := subm (unitHandle 9) [] 4, phase := .swap }, [], ⟨by decide +kernel, by decide +kernel,
     by decide +kernel, _, rfl, by decide +kernel⟩, by decide +kernel⟩,
   ⟨inFlight .unitRetire (subm (unitHandle 3)) (.applied 0),
     { id := 0, origin := .host, op := .unitRetire, sub := subm (unitHandle 3), phase := .applied 0 }, 0, by decide +kernel⟩⟩

theorem witness_StepTakesFrontCommand :
    (∃ (s : State) (c : Instr) (rest : List Instr), s.pending = c :: rest)
    ∧ (∃ s : State, s.pending = [])
    ∧ (∃ s : State, clocked s = false)
    ∧ (∃ s : State, clocked s = true)
    ∧ (∃ s : State, s.link.flights = [] ∧ s.link.xfers = []) :=
  ⟨⟨{ work with pending := [.regOv 0] }, .regOv 0, [], by decide +kernel⟩,
   ⟨work, by decide +kernel⟩,
   ⟨State.reset, by decide +kernel⟩,
   ⟨work, by decide +kernel⟩,
   ⟨work, by decide +kernel⟩⟩

theorem witness_StepKeepsSettled :
    (∃ s t : State, Settled s ∧ step s = .next t) :=
  ⟨work, work, (fun _ => ⟨rfl, by decide +kernel, by decide +kernel⟩), rfl⟩

theorem witness_WellFormedCommandsComplete :
    (∃ (c : Instr) (_s : State), c.wf = true) :=
  ⟨.regOv 1, work, by decide +kernel⟩

theorem witness_DescriptorRoundTrip :
    (∃ (opcode : Nat) (d : Submission), opcode < 256 ∧ d.wf = true) :=
  ⟨255, { subm with tag := 4095, gen := 15 }, by decide +kernel⟩

theorem witness_HandleRoundTrip :
    (∃ d u g : Nat, d < 16384 ∧ u < 256 ∧ g < 1024) :=
  ⟨16383, 255, 1023, by decide +kernel⟩

/-- The cases of DescriptorsAreChecked: a tag in use, a check that fails, an ordered command behind one that waits, a command with a TIME, one for whose
buffer there is no tile. -/
theorem witness_DescriptorsAreChecked_cases :
    tagRefused (work.onLink fun l => { l with tagsBusy := [(tagKey 0 5, 0)] }) subm = true
    ∧ (tagRefused work subm = false ∧ commonChecks work .unitOn subm = some stStaleHandle)
    ∧ (∃ (s : State) (sub : Submission), clocked s = true ∧ s.fw.paste = .serving ∧ sub.wf = true ∧ tagRefused s sub = false ∧ commonChecks s .nop sub = none
        ∧ (∀ g ∈ s.link.flights, g.phase = .scheduled ∧ g.id < s.link.nextFlight) ∧ heldBack (accepted s .nop sub) (flightFor s .nop sub) = true)
    ∧ (∃ (s : State) (sub : Submission), clocked s = true ∧ s.fw.paste = .serving ∧ sub.wf = true ∧ tagRefused s sub = false ∧ commonChecks s .unitOff sub = none
        ∧ (∀ g ∈ s.link.flights, g.phase = .scheduled ∧ g.id < s.link.nextFlight) ∧ heldBack (accepted s .unitOff sub) (flightFor s .unitOff sub) = false
        ∧ sub.time ≠ 0 ∧ scheduledCount s < 256 ∧ CapturesCopied s ∧ ¬ (s.power.brownout = true ∧ waitsForNvm .unitOff = true) ∧ bulkNeed (flightFor s .unitOff sub) = 0)
    ∧ (∃ (s : State) (sub : Submission), clocked s = true ∧ s.fw.paste = .serving ∧ sub.wf = true ∧ tagRefused s sub = false
        ∧ commonChecks s .telemSnapshot sub = none ∧ CapturesCopied s ∧ (∀ g ∈ s.link.flights, g.phase = .scheduled ∧ g.id < s.link.nextFlight)
        ∧ heldBack (accepted s .telemSnapshot sub) (flightFor s .telemSnapshot sub) = false ∧ bulkNeed (flightFor s .telemSnapshot sub) ≠ 0
        ∧ tilesAvailable s 69 (bulkNeed (flightFor s .telemSnapshot sub)) = false) :=
  ⟨by decide +kernel, by decide +kernel,
   ⟨inFlight .unitOff { subm (unitHandle 3) with tag := 6, time := 4000000000001 } .scheduled, { subm with flags := 1 }, by decide +kernel⟩,
   ⟨work, { subm (unitHandle 3) with time := 4000000000001 }, by decide +kernel⟩,
   ⟨work.onVat fun v => { v with quotas := [(69, (0, 0))] }, subm (unitHandle 3) [] 0 [] 64, by decide +kernel⟩⟩

/-- A power state that waits, at the last tick before a multiple of 3,200. -/
theorem witness_TicksMoveTime_power :
    ∃ s : State, clocked s = true ∧ s.link.flights = [] ∧ s.fw.recipe = none ∧ s.power.next = some .doze
      ∧ (s.time.gtc / tickGtc s * tickGtc s + tickGtc s) % 18446744073709551616 % 3200 = 0 :=
  ⟨(work.onPower fun p => { p with next := some .doze }).onTime fun t => { t with gtc := 2800 }, by decide +kernel⟩

end Sys2Proof.Tests
end

section
/-!
PROOF. The 32-bit unit handle (R27), what it holds and what its accessors read back.

`mkHandle` reduces each field to its width, so the rules below hold for every number; a field in range is then given back as it is.
-/

namespace Sys2Proof.Machine

/-- The fields of a handle do not overlap and fill the word, so nothing is lost at 2³² (R27). -/
theorem mkHandle_toNat (d u g : Nat) :
    (mkHandle d u g).toNat = d % 16384 * 2 ^ 18 + u % 256 * 2 ^ 10 + g % 1024 := by
  have fits : d % 16384 * 262144 + u % 256 * 1024 + g % 1024 < 2 ^ 32 := by omega
  exact Nat.mod_eq_of_lt fits

@[simp] theorem handleDev_mkHandle (d u g : Nat) : handleDev (mkHandle d u g) = d % 16384 := by
  rw [handleDev, bits, mkHandle_toNat]
  omega

@[simp] theorem handleUnit_mkHandle (d u g : Nat) : handleUnit (mkHandle d u g) = u % 256 := by
  rw [handleUnit, bits, mkHandle_toNat]
  omega

@[simp] theorem handleGen_mkHandle (d u g : Nat) : handleGen (mkHandle d u g) = g % 1024 := by
  rw [handleGen, bits, mkHandle_toNat]
  omega

/-- A handle has no bits beyond its three fields. -/
@[simp] theorem mkHandle_fields (h : Word32) : mkHandle (handleDev h) (handleUnit h) (handleGen h) = h := by
  apply BitVec.eq_of_toNat_eq
  have word : h.toNat < 2 ^ 32 := h.isLt
  rw [mkHandle_toNat, handleDev, handleUnit, handleGen, bits, bits, bits]
  omega

/-- Settles O60: each field is in range, so reducing it to its width leaves it as it is. -/
theorem handleRoundTrip : Obligations.HandleRoundTrip := by
  refine ⟨fun d u g hd hu hg => ?_, mkHandle_fields⟩
  rw [mkHandle_toNat, handleDev_mkHandle, handleUnit_mkHandle, handleGen_mkHandle,
    Nat.mod_eq_of_lt hd, Nat.mod_eq_of_lt hu, Nat.mod_eq_of_lt hg]
  exact ⟨rfl, rfl, rfl, rfl⟩

end Sys2Proof.Machine
end

section
/-!
PROOF. What a write of a unit leaves in its leaves, and how the unit is seen after a change of its leaves: rules that the trips and the starts share.
-/

namespace Sys2Proof.Machine

/-- A leaf with the registers that the members of a unit share: state, substate and gate (R106). -/
def sharing (l : Leaf) (st : UState) (sub : Nat) (g : GateMode) : Leaf := { l with st := st, sub := sub, gate := g }

/-- A leading leaf's unit is seen with the leaf's own registers, but for those its members share. -/
theorem vleaf_leads {s : State} {u : Nat} (h : Leads s u) : ∃ st sub g, vleaf s u = sharing (leafOf s u) st sub g := by
  have slot := h.2.1
  unfold slotOf at slot
  unfold vleaf
  cases hp : parallelOf s u with
  | none => exact ⟨_, _, _, rfl⟩
  | some p =>
    rw [hp] at slot
    dsimp only at slot ⊢
    rw [slot]
    split <;> exact ⟨_, _, _, rfl⟩

/-- A leading leaf itself after a write of its unit: as written, but for what a retired slot channel keeps (R46, R106). -/
theorem leafOf_onV_leads {s : State} {u : Nat} (h : Leads s u) (f : Leaf → Leaf) (hv : (f (vleaf s u)).st ≠ .retired) :
    ∃ st sub g d, leafOf (onV s u f) u = { sharing (f (vleaf s u)) st sub g with diag := d } := by
  have slot := h.2.1
  unfold slotOf at slot
  unfold onV
  cases hp : parallelOf s u with
  | none => rw [putv_solo hp, leafOf_setLeaf_same]; exact ⟨_, _, _, _, rfl⟩
  | some p =>
    obtain ⟨n, x⟩ := p
    rw [hp] at slot
    rw [leafOf_putv_hoop hp _ hv, if_pos (mem_of_parallelOf hp), memberWrite, if_pos slot.symm]
    split <;> exact ⟨_, _, _, _, rfl⟩

/-- A change of the leading leaf that leaves what the members share shows in the unit as it is. -/
theorem vleaf_map {s t : State} {u : Nat} (h : Leads s u) (F : Leaf → Leaf)
    (comm : ∀ l st sub g, F (sharing l st sub g) = sharing (F l) st sub g)
    (hh : t.press.hoops = s.press.hoops) (hu : leafOf t u = F (leafOf s u))
    (hg : ∀ v, (leafOf t v).st = (leafOf s v).st ∧ (leafOf t v).sub = (leafOf s v).sub ∧ (leafOf t v).gate = (leafOf s v).gate) :
    vleaf t u = F (vleaf s u) := by
  have slot := h.2.1
  unfold slotOf at slot
  unfold vleaf
  rw [parallelOf_congr hh]
  cases hp : parallelOf s u with
  | none => exact hu
  | some p =>
    rw [hp] at slot
    dsimp only at slot ⊢
    simp only [slot, hu, hg]
    split
    · exact (comm _ _ _ _).symm
    · have gate : (F (leafOf s u)).gate = (leafOf s u).gate := hu ▸ (hg u).2.2
      exact (congrArg (sharing (F (leafOf s u)) .retired 0) gate).trans (comm _ _ _ _).symm

end Sys2Proof.Machine
end
section
/-!
PROOF. A trip (R119 to R128): the events and the feed's loss that come before it, then one write of the unit.
-/

namespace Sys2Proof.Machine

/-- The events of a trip before it touches a leaf: LIMIT_EXIT where the unit leaves LIMIT, and TRIP (R122, R127). -/
def tripTold (s : State) (u mask : Nat) : State :=
  raiseP (leaveLimit s u) (eventUnit s u) evTrip (w32 (lowestCause mask + mask % 256 * 256 + ofB (vleaf s u).ramp.stall * 65536))
    (w32i (roundStep (unitMa s u))) (w32 (roundStep (vleaf s u).led.eEvLast).toNat)

/-- What a trip does before it writes the unit: its events, the loss of a feed, the end of a release (R203, R213). -/
def tripBegun (s : State) (u mask : Nat) : State := holdOffEnds (feedProtective (tripTold s u mask) u) u

/-- What a trip of the unit as it is in `s` writes, to COOL or to LOCK: the turn-off, and the trip's causes (R121). -/
def tripMark (s : State) (u mask : Nat) (st : UState) (l : Leaf) : Leaf :=
  { turnedOff (leafKind u) true true st l with
    cause := lowestCause mask, mask := mask % 256, stallAtTrip := (vleaf s u).ramp.stall, cleanT := 0, ended := stState, causes := 0,
    ftTrip := mask.testBit 2, tripLatch := (turnedOff (leafKind u) true true st l).tripLatch || leafKind u == .feed }

/-- A retry spent, and its delay started (R127, R128). -/
def spendRetry (s : State) (u : Nat) (l : Leaf) : Leaf :=
  { l with retries := satN 15 ((vleaf s u).retries + 1), retryUs := retryDelay (soft s u fRetryBase) (vleaf s u).retries * 1000,
           retryMs := retryDelay (soft s u fRetryBase) (vleaf s u).retries }

/-- What a trip writes: COOL with a retry spent while one is left, else LOCK. -/
def tripWrite (s : State) (u mask : Nat) (l : Leaf) : Leaf :=
  if (vleaf s u).retries < soft s u fRetryMax then spendRetry s u (tripMark s u mask .cool l) else tripMark s u mask .lock l

/-! ## The turn-off -/

@[simp] theorem tailEpisode_cause (l : Leaf) : (tailEpisode l).cause = l.cause := by
  unfold tailEpisode openEpisode; split
  · rfl
  · split
    · split <;> rfl
    · rfl

@[simp] theorem turnedOff_st (k : Kind) (p f : Bool) (st : UState) (l : Leaf) : (turnedOff k p f st l).st = st := rfl
@[simp] theorem turnedOff_sub (k : Kind) (p f : Bool) (st : UState) (l : Leaf) : (turnedOff k p f st l).sub = 0 := rfl
@[simp] theorem turnedOff_gate (k : Kind) (p f : Bool) (st : UState) (l : Leaf) :
    (turnedOff k p f st l).gate = sinkMode k l.env.clamp f l.gate := by simp [turnedOff]
@[simp] theorem turnedOff_retries (k : Kind) (p f : Bool) (st : UState) (l : Leaf) : (turnedOff k p f st l).retries = l.retries := by
  simp [turnedOff]
@[simp] theorem turnedOff_cause (k : Kind) (p f : Bool) (st : UState) (l : Leaf) : (turnedOff k p f st l).cause = l.cause := by
  simp [turnedOff]

/-! ## Before the write -/

theorem ShedEq.st {k : Kind} {a b : Leaf} (h : ShedEq k a b) : b.st = a.st := by obtain ⟨_, e, -⟩ := h; rw [e]
theorem ShedEq.sub {k : Kind} {a b : Leaf} (h : ShedEq k a b) : b.sub = a.sub := by obtain ⟨_, e, -⟩ := h; rw [e]
theorem ShedEq.cause {k : Kind} {a b : Leaf} (h : ShedEq k a b) : b.cause = a.cause := by obtain ⟨_, e, -⟩ := h; rw [e]
theorem ShedEq.retries {k : Kind} {a b : Leaf} (h : ShedEq k a b) : b.retries = a.retries := by obtain ⟨_, e, -⟩ := h; rw [e]
theorem ShedEq.soft {k : Kind} {a b : Leaf} (h : ShedEq k a b) : b.soft = a.soft := by obtain ⟨_, e, -⟩ := h; rw [e]
theorem ShedEq.env {k : Kind} {a b : Leaf} (h : ShedEq k a b) : b.env = a.env := by obtain ⟨_, e, -⟩ := h; rw [e]

section
variable {s : State} {u mask : Nat}

/-- The event with which a unit in LIMIT leaves it (R122). -/
theorem leaveLimit_evq (s : State) (u : Nat) : (leaveLimit s u).press.evq = s.press.evq ++
    (if (vleaf s u).st = .limit then [pressEvent s (eventUnit s u) evLimitExit (w32 (vleaf s u).limitLoop) 0 0] else []) := by
  unfold leaveLimit; split <;> simp

theorem leavesOnly_leaveLimit (s : State) (u : Nat) : LeavesOnly s (leaveLimit s u) := by unfold leaveLimit; split <;> rfl

@[simp] theorem leafOf_leaveLimit (s : State) (u v : Nat) : leafOf (leaveLimit s u) v = leafOf s v := by unfold leaveLimit; split <;> rfl

@[simp] theorem holdOffEnds_evq (s : State) (u : Nat) : (holdOffEnds s u).press.evq = s.press.evq := by unfold holdOffEnds; split <;> rfl

theorem leavesOnly_tripTold (s : State) (u mask : Nat) : LeavesOnly s (tripTold s u mask) :=
  (leavesOnly_leaveLimit s u).trans (leavesOnly_raiseP _ _ _ _ _ _)

@[simp] theorem leafOf_tripTold (s : State) (u mask v : Nat) : leafOf (tripTold s u mask) v = leafOf s v := by
  rw [tripTold, leafOf_raiseP, leafOf_leaveLimit]

theorem tripTold_evq (s : State) (u mask : Nat) : ∃ p0 p1 p2, (tripTold s u mask).press.evq = s.press.evq ++
    (if (vleaf s u).st = .limit then [pressEvent s (eventUnit s u) evLimitExit (w32 (vleaf s u).limitLoop) 0 0] else [])
      ++ [pressEvent s (eventUnit s u) evTrip p0 p1 p2] := by
  have rule : (leaveLimit s u).press.byRule = s.press.byRule := (leavesOnly_leaveLimit s u).pressOnly.byRule
  rw [tripTold, raiseP_evq, leaveLimit_evq]
  simp only [pressEvent, rule]
  exact ⟨_, _, _, rfl⟩

theorem pressOnly_tripBegun (s : State) (u mask : Nat) : PressOnly s (tripBegun s u mask) :=
  (leavesOnly_tripTold s u mask).pressOnly.trans <| (leavesOnly_feedProtective _ u).1.pressOnly.trans (pressOnly_holdOffEnds _ u)

theorem tripBegun_evq (s : State) (u mask : Nat) : (tripBegun s u mask).press.evq = (tripTold s u mask).press.evq := by
  rw [tripBegun, holdOffEnds_evq, (leavesOnly_feedProtective _ u).2]

/-- A trip takes nothing from a leaf before its write but what a feed's loss may. -/
theorem shedEq_tripBegun (s : State) (u mask v : Nat) : ShedEq (leafKind v) (leafOf s v) (leafOf (tripBegun s u mask) v) := by
  rw [tripBegun, leafOf_holdOffEnds, ← leafOf_tripTold s u mask v]
  exact shedEq_feedProtective _ u v

/-- The same of the unit as protection sees it. -/
theorem vleaf_tripBegun (h : Leads s u) (mask : Nat) : ShedEq (leafKind u) (vleaf s u) (vleaf (tripBegun s u mask) u) := by
  have told := (leavesOnly_tripTold s u mask).hoops
  rw [tripBegun, vleaf_holdOffEnds, ← vleaf_congr told (leafOf_tripTold s u mask)]
  exact vleaf_feedProtective _ u (h.congr told)

theorem leafOf_tripBegun (hk : leafKind u ≠ .feed) (mask v : Nat) : leafOf (tripBegun s u mask) v = leafOf s v := by
  rw [tripBegun, feedProtective_not hk, leafOf_holdOffEnds, leafOf_tripTold]

/-- The loss of a feed leaves a leaf's soft values and envelope, so what the unit's settings are. -/
theorem soft_tripBegun (s : State) (u mask id : Nat) : soft (tripBegun s u mask) u id = soft s u id :=
  soft_congr (pressOnly_tripBegun s u mask) fun v => ⟨(shedEq_tripBegun s u mask v).soft, (shedEq_tripBegun s u mask v).env⟩

/-! ## The trip -/

/-- A trip is what comes before its write, the write, and LOCK after it where no retry is left. -/
theorem trip_eq (s : State) (u mask : Nat) : trip s u mask =
    if (vleaf s u).retries < soft s u fRetryMax then onV (tripBegun s u mask) u (tripWrite s u mask)
    else raiseP (onV (tripBegun s u mask) u (tripWrite s u mask)) (eventUnit s u) evLock 0 (w32 (lowestCause mask)) 0 := by
  have unfolded : trip s u mask =
      if (vleaf s u).retries < soft (tripBegun s u mask) u fRetryMax then
        onV (tripBegun s u mask) u fun l =>
          { tripMark s u mask .cool l with
            retries := satN 15 ((vleaf s u).retries + 1), retryUs := retryDelay (soft (tripBegun s u mask) u fRetryBase) (vleaf s u).retries * 1000,
            retryMs := retryDelay (soft (tripBegun s u mask) u fRetryBase) (vleaf s u).retries }
      else raiseP (onV (tripBegun s u mask) u (tripMark s u mask .lock)) (eventUnit s u) evLock 0 (w32 (lowestCause mask)) 0 := rfl
  rw [unfolded, soft_tripBegun, soft_tripBegun]
  unfold tripWrite
  split <;> rfl

theorem pressOnly_trip (s : State) (u mask : Nat) : PressOnly s (trip s u mask) := by
  rw [trip_eq]
  have write := (pressOnly_tripBegun s u mask).trans (pressOnly_onV _ u (tripWrite s u mask))
  split
  · exact write
  · exact write.trans (pressOnly_raiseP _ _ _ _ _ _)

@[simp] theorem tripWrite_st (s : State) (u mask : Nat) (l : Leaf) :
    (tripWrite s u mask l).st = if (vleaf s u).retries < soft s u fRetryMax then .cool else .lock := by
  unfold tripWrite; split <;> rfl

theorem tripWrite_ne_retired (s : State) (u mask : Nat) (l : Leaf) : (tripWrite s u mask l).st ≠ .retired := by
  rw [tripWrite_st]; split <;> simp

/-- A unit that has tripped is seen as the trip wrote it. -/
theorem vleaf_trip (h : Leads s u) (hc : (vleaf s u).st.conducting = true) (mask : Nat) :
    vleaf (trip s u mask) u = keepsDiag (tripBegun s u mask) u (tripWrite s u mask (vleaf (tripBegun s u mask) u)) := by
  have same : (vleaf (tripBegun s u mask) u).st = (vleaf s u).st := (vleaf_tripBegun h mask).st
  have write := vleaf_onV (h.congr (pressOnly_tripBegun s u mask).hoops) (same ▸ conducting_ne_retired hc) (tripWrite s u mask)
    (tripWrite_ne_retired s u mask _)
  rw [trip_eq]
  split
  · exact write
  · rw [vleaf_raiseP]; exact write

theorem trip_evq (s : State) (u mask : Nat) : ∃ p0 p1 p2, (trip s u mask).press.evq = s.press.evq ++
    (if (vleaf s u).st = .limit then [pressEvent s (eventUnit s u) evLimitExit (w32 (vleaf s u).limitLoop) 0 0] else [])
      ++ pressEvent s (eventUnit s u) evTrip p0 p1 p2 ::
      (if (vleaf s u).retries < soft s u fRetryMax then [] else [pressEvent s (eventUnit s u) evLock 0 (w32 (lowestCause mask)) 0]) := by
  obtain ⟨p0, p1, p2, told⟩ := tripTold_evq s u mask
  refine ⟨p0, p1, p2, ?_⟩
  have write : (onV (tripBegun s u mask) u (tripWrite s u mask)).press.evq = (tripTold s u mask).press.evq :=
    (putv_evq _ _ _).trans (tripBegun_evq s u mask)
  have rule : (onV (tripBegun s u mask) u (tripWrite s u mask)).press.byRule = s.press.byRule :=
    ((pressOnly_tripBegun s u mask).trans (pressOnly_onV _ _ _)).byRule
  rw [trip_eq]
  split
  · rw [write, told]
  · rw [raiseP_evq, write, told]
    simp [pressEvent, rule]

/-- A trip of a unit that is no feed leaves every leaf outside it. -/
theorem leafOf_trip_outside (hk : leafKind u ≠ .feed) (mask : Nat) {v : Nat} (hv : v ∉ groupOf s u) : leafOf (trip s u mask) v = leafOf s v := by
  have write : leafOf (onV (tripBegun s u mask) u (tripWrite s u mask)) v = leafOf s v := by
    have outside : v ∉ groupOf (tripBegun s u mask) u := by rwa [groupOf_congr (pressOnly_tripBegun s u mask).hoops]
    exact (leafOf_putv_other _ _ _ _ outside).trans (leafOf_tripBegun hk mask v)
  rw [trip_eq]
  split <;> exact write

/-! ## What the unit is after it -/

theorem trip_st (h : Leads s u) (hc : (vleaf s u).st.conducting = true) (mask : Nat) :
    (vleaf (trip s u mask) u).st = if (vleaf s u).retries < soft s u fRetryMax then .cool else .lock := by
  rw [vleaf_trip h hc, keepsDiag_st, tripWrite_st]

/-- A trip marks its unit with the mask of its causes and the lowest of them, and ends the clean interval (R120, R121, R130). -/
theorem trip_marks (h : Leads s u) (hc : (vleaf s u).st.conducting = true) (hm : mask < 256) :
    (vleaf (trip s u mask) u).cause = lowestCause mask ∧ (vleaf (trip s u mask) u).mask = mask ∧ (vleaf (trip s u mask) u).cleanT = 0 := by
  have fits : mask % 256 = mask := Nat.mod_eq_of_lt hm
  rw [vleaf_trip h hc, keepsDiag_cause, keepsDiag_mask, keepsDiag_cleanT]
  unfold tripWrite
  split <;> exact ⟨rfl, fits, rfl⟩

/-- The gate sinks FAST, whether or not the loss of a feed has begun the sink (R86, R205). -/
theorem trip_gate (h : Leads s u) (hc : (vleaf s u).st.conducting = true) (mask : Nat) :
    (vleaf (trip s u mask) u).gate = sinkMode (leafKind u) (vleaf s u).env.clamp true (vleaf s u).gate := by
  obtain ⟨g, shed, sunk⟩ := vleaf_tripBegun h mask
  have gate : (tripWrite s u mask (vleaf (tripBegun s u mask) u)).gate = sinkMode (leafKind u) (vleaf s u).env.clamp true g := by
    rw [shed]
    unfold tripWrite spendRetry tripMark
    split <;> simp
  rw [vleaf_trip h hc, keepsDiag_gate, gate]
  rcases sunk with e | e
  · rw [e]
  · rw [e, sink_idem]

/-- With a retry left a trip spends it and starts its delay; with none left the unit locks (R127, R128). -/
theorem trip_retry (h : Leads s u) (hc : (vleaf s u).st.conducting = true) (mask : Nat) (hr : soft s u fRetryMax ≤ 15) :
    if (vleaf s u).retries < soft s u fRetryMax then
      (vleaf (trip s u mask) u).st = .cool ∧ (vleaf (trip s u mask) u).retries = (vleaf s u).retries + 1
        ∧ (vleaf (trip s u mask) u).retryUs = soft s u fRetryBase * 2 ^ min (vleaf s u).retries 8 * 1000
    else
      (vleaf (trip s u mask) u).st = .lock ∧ (vleaf (trip s u mask) u).sub = 0 ∧ (vleaf (trip s u mask) u).retries = (vleaf s u).retries := by
  have kept : (vleaf (tripBegun s u mask) u).retries = (vleaf s u).retries := (vleaf_tripBegun h mask).retries
  rw [vleaf_trip h hc, keepsDiag_st, keepsDiag_sub, keepsDiag_retries, keepsDiag_retryUs]
  unfold tripWrite
  split
  · next remains =>
    have count : satN 15 ((vleaf s u).retries + 1) = (vleaf s u).retries + 1 := by unfold satN; rw [if_neg (by omega)]
    have doubling : (if 8 < (vleaf s u).retries then 8 else (vleaf s u).retries) = min (vleaf s u).retries 8 := by
      split <;> omega
    refine ⟨rfl, count, ?_⟩
    show retryDelay _ _ * 1000 = _
    rw [retryDelay, doubling]
  · exact ⟨rfl, rfl, by simp [tripMark, kept]⟩

end

/-- Settles O1: a trip is the events and the loss that come before it, then one write of the unit, and LOCK where no retry is left. -/
theorem tripSpendsARetryOrLocks : Obligations.TripSpendsARetryOrLocks := by
  intro s u mask h hc hm hr
  obtain ⟨cause, causes, clean⟩ := trip_marks h hc hm
  refine ⟨trip_retry h hc mask hr, cause, causes, clean, trip_gate h hc mask, trip_evq s u mask, ?_, fun hk v hv => ?_⟩
  · have frame := pressOnly_trip s u mask
    unfold PressOnly at frame
    rw [frame]
  · refine leafOf_trip_outside ?_ mask hv
    rcases hk with hk | hk <;> simp [hk]

end Sys2Proof.Machine
end

section
/-!
PROOF. The fault timer (R113): what step 1 finds for a unit, and the trip or the damage lock that follows.
-/

namespace Sys2Proof.Machine

@[simp] theorem keepsDiag_causes (s : State) (u : Nat) (v : Leaf) : (keepsDiag s u v).causes = v.causes := by unfold keepsDiag; split <;> rfl

@[simp] theorem openEpisode_causes (l : Leaf) : (openEpisode l).causes = l.causes := by unfold openEpisode; split <;> rfl

/-! ## Diagnostics alone differ -/

/-- From `s` to `t` only the diagnostics of leaves differ. -/
def DiagOnly (s t : State) : Prop := LeavesOnly s t ∧ ∀ v, leafOf t v = { leafOf s v with diag := (leafOf t v).diag }

theorem DiagOnly.refl (s : State) : DiagOnly s s := ⟨rfl, fun _ => rfl⟩

theorem DiagOnly.trans {a b c : State} (h : DiagOnly a b) (k : DiagOnly b c) : DiagOnly a c :=
  ⟨h.1.trans k.1, fun v => by rw [k.2 v, h.2 v]⟩

theorem diagOnly_onLeaf (s : State) (u : Nat) (f : Leaf → Diag) : DiagOnly s (onLeaf s u fun l => { l with diag := f l }) := by
  refine ⟨leavesOnly_onLeaf _ _ _, fun v => ?_⟩
  rw [leafOf_onLeaf]
  split
  · next h => rw [h]
  · rfl

theorem diagOnly_latchVerdict (s : State) (u : Nat) : DiagOnly s (latchVerdict s u) := by
  have noted := diagOnly_onLeaf s u fun l => { l.diag with trippedOff := false }
  unfold latchVerdict
  split
  · dsimp only
    split
    · exact noted
    · exact noted.trans (diagOnly_onLeaf _ _ _)
  · exact DiagOnly.refl s

theorem DiagOnly.vleaf {s t : State} {u : Nat} (d : DiagOnly s t) (h : Leads s u) :
    vleaf t u = { vleaf s u with diag := (leafOf t u).diag } :=
  vleaf_map h (fun l => { l with diag := (leafOf t u).diag }) (fun _ _ _ _ => rfl) d.1.hoops (d.2 u) fun v => by
    rw [d.2 v]; exact ⟨rfl, rfl, rfl⟩

/-! ## What step 1 finds of a unit for which no verdict waits -/

/-- The causes SHORT (bit 0) and PUMP (bit 1) that stand for a unit (R105, R120). -/
def standingCauses (s : State) (u : Nat) : Nat :=
  ofB ((leafOf s u).tripLatch && !(leafOf s u).tripClock && !((vleaf s u).pwm.cycleTrip && (vleaf s u).sub == 1))
    + 2 * ofB (leafKind u == .channel && (pumpOf s (bankOf u)).fail)

/-- A conducting unit for which causes have been noted. -/
structure Noted (s : State) (u causes : Nat) : Prop where
  leads : Leads s u
  conducting : (vleaf s u).st.conducting = true
  causes : (vleaf s u).causes = causes

variable {s : State} {u n : Nat}

/-- With no verdict waiting in its group, step 1 acts on none (R179). -/
theorem actVerdicts_quiet (h : ∀ m ∈ groupOf s u, (leafOf s m).diag.pending = 0) : actVerdicts s u = s := by
  have solo : (leafOf s u).diag.pending = 0 → actSolo s u = s := fun h => if_pos h
  have member : ∀ m, (leafOf s m).diag.pending = 0 → actMember s m = s := fun m h => if_pos h
  unfold groupOf at h
  unfold actVerdicts
  cases hp : parallelOf s u with
  | none =>
    rw [hp] at h
    dsimp only
    split
    · exact solo (h u (List.mem_singleton_self u))
    · rfl
  | some p =>
    rw [hp] at h
    exact foldl_id _ _ _ fun m hm => member m (h m hm)

theorem standingCauses_latchVerdict (h : Leads s u) : standingCauses (latchVerdict s u) u = standingCauses s u := by
  have d := diagOnly_latchVerdict s u
  have pumps : pumpOf (latchVerdict s u) (bankOf u) = pumpOf s (bankOf u) := by unfold pumpOf; rw [d.1]
  unfold standingCauses
  rw [d.vleaf h, d.2 u, pumps]

/-- A write of the unit that leaves it conducting notes the causes it writes. -/
theorem noted_onV (h : Leads s u) (hc : (vleaf s u).st.conducting = true) (f : Leaf → Leaf)
    (hst : (f (vleaf s u)).st.conducting = true) (hf : (f (vleaf s u)).causes = n) : Noted (onV s u f) u n := by
  have seen := vleaf_onV h (conducting_ne_retired hc) f (conducting_ne_retired hst)
  refine ⟨h.congr (pressOnly_onV s u f).hoops, ?_, ?_⟩
  · rw [seen, keepsDiag_st, hst]
  · rw [seen, keepsDiag_causes, hf]

theorem noted_raiseP (h : Noted s u n) (src code : Nat) (x y z : Word32) : Noted (raiseP s src code x y z) u n := by
  obtain ⟨leads, conducting, causes⟩ := h
  rw [← vleaf_raiseP s src code u x y z] at conducting causes
  exact ⟨leads.congr rfl, conducting, causes⟩

/-- What the entry to LIMIT writes (R111, R122). -/
def limitWrite (u loop : Nat) (l : Leaf) : Leaf :=
  { openEpisode l with st := .limit, sub := if leafKind u = .channel then l.sub else 0, limitLoop := loop, limitNow := true, cleanT := 0,
                       gate := if leafKind u = .channel || leafKind u = .feed then askGate l .servo else l.gate }

/-- The LIMIT that a cycle trip brings keeps the causes noted (R100). -/
theorem noted_enterLimit (h : Noted s u n) (loop : Nat) : Noted (enterLimit s u loop) u n := by
  have write : Noted (onV s u (limitWrite u loop)) u n :=
    noted_onV h.leads h.conducting _ rfl ((openEpisode_causes _).trans h.causes)
  exact noted_raiseP write _ _ _ _ _

theorem noted_cycleLimit (h : Noted s u n) : Noted (onLeaf s u fun l => { l with pwm := { l.pwm with cycleLimit := true } }) u n := by
  have seen := vleaf_map h.leads (t := onLeaf s u fun l => { l with pwm := { l.pwm with cycleLimit := true } })
    (fun l => { l with pwm := { l.pwm with cycleLimit := true } }) (fun _ _ _ _ => rfl) rfl (leafOf_onLeaf_same _ _ _) fun v => by
      rw [leafOf_onLeaf]
      split
      · next e => rw [e]; exact ⟨rfl, rfl, rfl⟩
      · exact ⟨rfl, rfl, rfl⟩
  exact ⟨h.leads, by rw [seen]; exact h.conducting, by rw [seen]; exact h.causes⟩

/-- Step 1 notes SHORT and PUMP where they stand, and leaves the unit conducting (R105). -/
theorem noted_step1 (h : Leads s u) (hc : (vleaf s u).st.conducting = true) (quiet : ∀ m ∈ groupOf s u, (leafOf s m).diag.pending = 0) :
    Noted (step1 s u) u (standingCauses s u) := by
  have d := diagOnly_latchVerdict s u
  have latched : (vleaf (latchVerdict s u) u).st.conducting = true := by rw [d.vleaf h]; exact hc
  have noted : Noted (onV (latchVerdict s u) u fun l => { l with causes := standingCauses (latchVerdict s u) u, ftTrip := false }) u
      (standingCauses s u) :=
    noted_onV (h.congr d.1.hoops) latched _ latched (standingCauses_latchVerdict h)
  unfold step1
  rw [actVerdicts_quiet quiet]
  dsimp only
  rw [if_pos latched]
  split
  · split
    · exact noted_cycleLimit (noted_enterLimit noted 0)
    · exact noted_cycleLimit noted
  · exact noted

/-! ## The trip -/

theorem faultDue_iff (hc : (vleaf s u).st.conducting = true) (ht : soft s u fFaultTime ≠ 0) :
    faultDue s u = true ↔ wholeTicks s (soft s u fFaultTime) * 8 ≤ (vleaf s u).faultT := by
  simp [faultDue, hc, ht]

/-- FAULT_TIME joins SHORT and PUMP in the mask as its bit 2. -/
theorem standingCauses_faultTime (s : State) (u : Nat) : standingCauses s u ||| 4 = 4 + standingCauses s u ∧ standingCauses s u ||| 4 < 256 := by
  unfold standingCauses
  generalize (_ && _ && _ : Bool) = short
  generalize (_ && _ : Bool) = pump
  revert short pump
  decide

/-- The trip of a unit for which causes stand. -/
theorem tripStep_noted (h : Noted s u n) (hn : n ≠ 0) : tripStep s u = trip s u n := by
  unfold tripStep
  dsimp only
  rw [h.causes, if_pos hn, if_pos h.conducting]

/-- A fault timer that has expired trips its unit with FAULT_TIME and what else stands, where no damage verdict waits. -/
theorem faultTimerExpiryOp_trips (h : Leads s u) (hc : (vleaf s u).st.conducting = true) (due : faultDue s u = true)
    (quiet : ∀ m ∈ groupOf s u, (leafOf s m).diag.pending = 0) :
    ∃ t, Leads t u ∧ (vleaf t u).st.conducting = true ∧ faultTimerExpiryOp u s = trip t u (standingCauses s u ||| 4) := by
  obtain ⟨leads, conducting, causes⟩ := noted_step1 h hc quiet
  have noted : Noted (onV (step1 s u) u fun l => { l with causes := l.causes ||| 4 }) u (standingCauses s u ||| 4) :=
    noted_onV leads conducting _ conducting (congrArg (· ||| 4) causes)
  refine ⟨_, noted.leads, noted.conducting, ?_⟩
  rw [faultTimerExpiryOp, if_pos due]
  exact tripStep_noted noted (by rw [(standingCauses_faultTime s u).1]; omega)

/-! ## The damage lock -/

/-- From `s` to `t` the hoops, and every leaf's state, substate and trip cause, are as they were. -/
def SameStates (s t : State) : Prop :=
  t.press.hoops = s.press.hoops ∧
    ∀ v, (leafOf t v).st = (leafOf s v).st ∧ (leafOf t v).sub = (leafOf s v).sub ∧ (leafOf t v).cause = (leafOf s v).cause

theorem SameStates.refl (s : State) : SameStates s s := ⟨rfl, fun _ => ⟨rfl, rfl, rfl⟩⟩

theorem SameStates.trans {a b c : State} (h : SameStates a b) (k : SameStates b c) : SameStates a c := by
  refine ⟨k.1.trans h.1, fun v => ?_⟩
  rw [(k.2 v).1, (k.2 v).2.1, (k.2 v).2.2]
  exact h.2 v

theorem DiagOnly.sameStates {s t : State} (d : DiagOnly s t) : SameStates s t :=
  ⟨d.1.hoops, fun v => by rw [d.2 v]; exact ⟨rfl, rfl, rfl⟩⟩

theorem sameStates_onLeaf (s : State) (u : Nat) (f : Leaf → Leaf)
    (hf : ∀ l, (f l).st = l.st ∧ (f l).sub = l.sub ∧ (f l).cause = l.cause) : SameStates s (onLeaf s u f) := by
  refine ⟨rfl, fun v => ?_⟩
  rw [leafOf_onLeaf]
  split
  · next h => rw [h]; exact hf _
  · exact ⟨rfl, rfl, rfl⟩

/-- The same of a unit of its own. -/
theorem sameStates_onV (hp : parallelOf s u = none) (f : Leaf → Leaf)
    (hf : ∀ l, (f l).st = l.st ∧ (f l).sub = l.sub ∧ (f l).cause = l.cause) : SameStates s (onV s u f) := by
  rw [onV, putv_solo hp, vleaf_solo hp]
  exact sameStates_onLeaf s u f hf

theorem sameStates_shedFire (s : State) (k : Nat) : SameStates s (shedFire s k) :=
  ⟨(leavesOnly_shedFire s k).1.hoops, fun v =>
    have shed := shedEq_shedFire s k v
    ⟨shed.st, shed.sub, shed.cause⟩⟩

theorem sameStates_loseFeed (s : State) (f : Nat) : SameStates s (loseFeed s f) := by
  have lost := sameStates_onLeaf s f (fun l => { l with lost := true, recoverUs := 0 }) fun _ => ⟨rfl, rfl, rfl⟩
  unfold loseFeed
  split
  · exact SameStates.refl s
  · exact lost.trans (sameStates_shedFire _ _)

theorem sameStates_escalateFeed (s : State) (f : Nat) : SameStates s (escalateFeed s f) := by
  unfold escalateFeed feedLatched
  have latched := sameStates_onLeaf s f (fun l => { l with offLatch := true, offFeed := true, autoMate := false,
                                                           gate := sinkMode .feed false true l.gate, gateR := false }) fun _ => ⟨rfl, rfl, rfl⟩
  split
  · exact latched.trans (sameStates_loseFeed _ f)
  · exact latched

theorem sameStates_escalate (s : State) (ch : Nat) : SameStates s (escalate s ch) := by
  have noted := (diagOnly_onLeaf s ch fun l => { l.diag with uncontrollable := true, esc := (leafOf s (slotOf s ch)).env.escalation }).sameStates
  refine noted.trans ?_
  unfold escalate
  dsimp only
  split
  · have held : ∀ (fs : List Nat) (t : State), SameStates t (fs.foldl escalateFeed t) := fun fs t =>
      foldl_keeps SameStates SameStates.refl (fun _ _ _ => SameStates.trans) _ _ _ sameStates_escalateFeed
    exact held _ (State.onPress _ _)
  · exact SameStates.refl _

theorem sameStates_writeLock (s : State) (u : Nat) (k : LockKind) (v e : Nat) : SameStates s (writeLock s u k v e) := by
  unfold writeLock
  split
  · exact (diagOnly_onLeaf (s.onNvm _) u _).sameStates
  · exact (diagOnly_onLeaf s u _).sameStates

/-- What a damage lock does before it writes the unit: LIMIT_EXIT, the end of a release, the loss of a feed. -/
def lockBegun (s : State) (u : Nat) : State := feedProtective (holdOffEnds (leaveLimit s u) u) u

/-- What a damage lock writes (R37, R132). -/
def lockWrite (u : Nat) (l : Leaf) : Leaf :=
  { turnedOff (leafKind u) true true .lock l with sub := 1, cleanT := 0, ended := stState, causes := 0 }

@[simp] theorem lockWrite_st (u : Nat) (l : Leaf) : (lockWrite u l).st = .lock := rfl
@[simp] theorem lockWrite_sub (u : Nat) (l : Leaf) : (lockWrite u l).sub = 1 := rfl
@[simp] theorem lockWrite_cause (u : Nat) (l : Leaf) : (lockWrite u l).cause = l.cause := by simp [lockWrite]

theorem hoops_lockBegun (s : State) (u : Nat) : (lockBegun s u).press.hoops = s.press.hoops :=
  ((leavesOnly_leaveLimit s u).pressOnly.trans <| (pressOnly_holdOffEnds _ u).trans (leavesOnly_feedProtective _ u).1.pressOnly).hoops

theorem vleaf_lockBegun (h : Leads s u) : ShedEq (leafKind u) (vleaf s u) (vleaf (lockBegun s u) u) := by
  have exited := leavesOnly_leaveLimit s u
  have shed := vleaf_feedProtective (holdOffEnds (leaveLimit s u) u) u
    (h.congr (exited.pressOnly.trans (pressOnly_holdOffEnds _ u)).hoops)
  rwa [vleaf_holdOffEnds, vleaf_congr exited.hoops (leafOf_leaveLimit s u)] at shed

/-- The recording of an event touches no unit. -/
theorem raiseRecorded_unit (s : State) (src code : Nat) (x y z : Word32) (u : Nat) :
    vleaf (raiseRecorded s src code x y z) u = vleaf s u ∧ (raiseRecorded s src code x y z).press.hoops = s.press.hoops := by
  unfold raiseRecorded
  split <;> exact ⟨vleaf_congr rfl fun _ => rfl, rfl⟩

/-- A damage lock of a conducting unit is one write of it. -/
theorem damageLock_conducting (hc : (vleaf s u).st.conducting = true) (k : Nat) : ∃ src x, damageLock s u k =
    raiseRecorded (onV (lockBegun s u) u (lockWrite u)) src evLock 1 x (w32 k) := by
  have standing : ¬ ((vleaf s u).st = .retired ∨ (vleaf s u).st = .lock ∧ (vleaf s u).sub = 1) := by
    rintro (r | ⟨r, -⟩) <;> rw [r] at hc <;> cases hc
  exact ⟨_, _, if_neg standing⟩

/-- A damage lock takes a conducting unit to LOCK with kind DAMAGE, and leaves its trip cause (R37, R132). -/
theorem damageLock_vleaf (h : Leads s u) (hc : (vleaf s u).st.conducting = true) (k : Nat) :
    (vleaf (damageLock s u k) u).st = .lock ∧ (vleaf (damageLock s u k) u).sub = 1 ∧ (vleaf (damageLock s u k) u).cause = (vleaf s u).cause
      ∧ (damageLock s u k).press.hoops = s.press.hoops := by
  have begun := vleaf_lockBegun h
  have seen := vleaf_onV (h.congr (hoops_lockBegun s u)) (begun.st ▸ conducting_ne_retired hc) (lockWrite u) (by simp)
  obtain ⟨src, x, lock⟩ := damageLock_conducting hc k
  obtain ⟨unit, hoops⟩ := raiseRecorded_unit (onV (lockBegun s u) u (lockWrite u)) src evLock 1 x (w32 k) u
  rw [lock, unit, hoops, seen]
  exact ⟨by simp, by simp, by simp [begun.cause], (putv_hoops _ _ _).trans (hoops_lockBegun s u)⟩

/-- A leaf of its own is locked for damage, its trip cause as in `s`. -/
structure DamageLocked (s t : State) (u : Nat) : Prop where
  solo : parallelOf t u = none
  st : (leafOf t u).st = .lock
  sub : (leafOf t u).sub = 1
  cause : (leafOf t u).cause = (leafOf s u).cause

theorem DamageLocked.trans {s a b : State} {u : Nat} (h : DamageLocked s a u) (k : SameStates a b) : DamageLocked s b u := by
  obtain ⟨hoops, leaves⟩ := k
  obtain ⟨st, sub, cause⟩ := leaves u
  exact ⟨(parallelOf_congr hoops u).trans h.solo, st.trans h.st, sub.trans h.sub, cause.trans h.cause⟩

/-- A verdict that waits for a conducting channel of its own locks it (R179). -/
theorem actSolo_locks (h : Solo s u) (hc : (leafOf s u).st.conducting = true) (hd : (leafOf s u).diag.pending ≠ 0) :
    DamageLocked s (actSolo s u) u := by
  have noted : SameStates s (noteVerdict s u (lowestVerdict (leafOf s u).diag.pending)) := (diagOnly_onLeaf s u _).sameStates
  have locks : ∀ t k, SameStates s t → DamageLocked s (damageLock t u k) u := by
    intro t k same
    obtain ⟨hoops, leaves⟩ := same
    obtain ⟨st, -, cause⟩ := leaves u
    have solo : Solo t u := ⟨h.1, (parallelOf_congr hoops u).trans h.2⟩
    obtain ⟨locked, kind, kept, hh⟩ := damageLock_vleaf solo.leads (by rw [vleaf_solo solo.2, st]; exact hc) k
    have after : parallelOf (damageLock t u k) u = none := (parallelOf_congr hh u).trans solo.2
    rw [vleaf_solo after] at locked kind kept
    rw [vleaf_solo solo.2, cause] at kept
    exact ⟨after, locked, kind, kept⟩
  unfold actSolo
  dsimp only
  rw [if_neg hd]
  refine locks _ _ (SameStates.trans ?_ (sameStates_writeLock _ _ _ _ _))
  split
  · exact noted.trans (sameStates_escalate _ u)
  · exact noted

/-- A unit locked for damage in step 1 neither conducts nor trips in the tick (R132). -/
theorem faultTimerExpiryOp_locks (h : Solo s u) (hk : leafKind u = .channel) (hc : (leafOf s u).st.conducting = true) (due : faultDue s u = true)
    (hd : (leafOf s u).diag.pending ≠ 0) : DamageLocked s (faultTimerExpiryOp u s) u := by
  have acted : actVerdicts s u = actSolo s u := by
    unfold actVerdicts
    rw [h.2]
    exact if_pos hk
  have locked := (actSolo_locks h hc hd).trans (diagOnly_latchVerdict (actSolo s u) u).sameStates
  have still : ∀ {t : State}, DamageLocked s t u → ¬ (vleaf t u).st.conducting = true := by
    intro t k
    rw [vleaf_solo k.solo, k.st]
    exact Bool.false_ne_true
  have step : DamageLocked s (step1 s u) u := by
    unfold step1
    rw [acted]
    dsimp only
    rw [if_neg (still locked)]
    exact locked.trans (sameStates_onV locked.solo _ fun _ => ⟨rfl, rfl, rfl⟩)
  have fault := step.trans (sameStates_onV step.solo (fun l => { l with causes := l.causes ||| 4 }) fun _ => ⟨rfl, rfl, rfl⟩)
  rw [faultTimerExpiryOp, if_pos due]
  unfold tripStep
  dsimp only
  split
  · rw [if_neg (still fault)]
    exact fault.trans (sameStates_onV fault.solo _ fun _ => ⟨rfl, rfl, rfl⟩)
  · exact fault

end Sys2Proof.Machine
end

section
/-!
PROOF. The ends of COOL and ARM (R37, R129, R138, R158), the clean interval (R130), and the statement on all of them.
-/

namespace Sys2Proof.Machine

section
variable {s : State} {u : Nat}

/-! ## The entry to ARM -/

/-- From `s` to `t` only leaves, comparator cells and the measurement banks differ. -/
def StartOnly (s t : State) : Prop := t = { s with press := { s.press with leaves := t.press.leaves }, cmp := t.cmp, meas := t.meas }

theorem StartOnly.refl (s : State) : StartOnly s s := rfl

theorem StartOnly.trans {a b c : State} (h : StartOnly a b) (k : StartOnly b c) : StartOnly a c := by
  unfold StartOnly at *; rw [k, h]

theorem StartOnly.hoops {s t : State} (h : StartOnly s t) : t.press.hoops = s.press.hoops := by rw [h]
theorem StartOnly.evq {s t : State} (h : StartOnly s t) : t.press.evq = s.press.evq := by rw [h]
theorem StartOnly.byRule {s t : State} (h : StartOnly s t) : t.press.byRule = s.press.byRule := by rw [h]

theorem startOnly_onV (s : State) (u : Nat) (f : Leaf → Leaf) : StartOnly s (onV s u f) := by
  obtain ⟨frame, evq⟩ := leavesOnly_putv s u (f (vleaf s u))
  have frame : onV s u f = { s with press := { s.press with leaves := (onV s u f).press.leaves, evq := (onV s u f).press.evq } } := frame
  have evq : (onV s u f).press.evq = s.press.evq := evq
  rw [evq] at frame
  unfold StartOnly
  rw [frame]

/-- A buffer enabled touches the measurement banks alone (R241). -/
theorem enableRef_onMeas (s : State) (b : Nat) : enableRef s b = { s with meas := (enableRef s b).meas } := by
  unfold enableRef; split <;> rfl

/-- So does an urgent request of the Press (R250). -/
theorem pressUrgent_onMeas (s : State) (n : Nat) : pressUrgent s n = { s with meas := (pressUrgent s n).meas } := by
  unfold pressUrgent
  rw [enableRef_onMeas s (nodeBank n)]
  rfl

@[simp] theorem pressUrgent_press (s : State) (n : Nat) : (pressUrgent s n).press = s.press := by rw [pressUrgent_onMeas]

theorem startOnly_pressUrgent (s : State) (n : Nat) : StartOnly s (pressUrgent s n) := by
  unfold StartOnly; rw [pressUrgent_onMeas]

/-- What the entry to ARM clears of each member: its latches, but for that of a trip cell still asserted (R91, R134, R273). -/
def armLatches (stands : Bool) (l : Leaf) : Leaf :=
  { l with diag := { l.diag with backfeedAtArm := l.diag.backfeed, shortAtArm := l.diag.verdict == 1 },
           tripLatch := l.tripClock || stands, offLatch := false, offSeat := false, offShed := false, offFeed := false, offXtrip := false }

/-- The buffers of a unit's banks enabled (R241). -/
def refsEnabled (s : State) (u : Nat) : State := (groupOf s u).foldl (fun s m => enableRef s (nodeBank (iNode m))) s

/-- The latches of a unit's members cleared. -/
def latchesCleared (s : State) (u : Nat) (stands : Bool) : State :=
  (groupOf s u).foldl (fun s m => onLeaf s m (armLatches stands)) s

/-- The latch of the cell that trips a unit cleared, where its input is released (R273). -/
def cellCleared (s : State) (u : Nat) : State :=
  match tripCell (slotOf s u) with | some c => onCell s c fun x => { x with latch := x.level } | none => s

/-- What the entry to ARM does before it writes the unit. -/
def armBegun (s : State) (u : Nat) : State := cellCleared (latchesCleared (refsEnabled s u) u (tripStands s u)) u

/-- What the entry to ARM writes of the unit (R37, R112, R121). -/
def armWrite (byRetry : Bool) (l : Leaf) : Leaf :=
  { l with st := .arm, sub := 0, armUs := 0, armReady := some 0, faultT := 0, retryCancelled := false, coolShed := false, autoMate := false,
           ended := stState, cause := if byRetry then l.cause else 0, ramp := { l.ramp with capInvalid := false } }

/-- The entry to ARM is what comes before its write, the write, and two urgent conversions (R157). -/
theorem armLeaf_eq (s : State) (u : Nat) (byRetry : Bool) :
    ∃ n m, armLeaf s u byRetry = pressUrgent (pressUrgent (onV (armBegun s u) u (armWrite byRetry)) n) m := ⟨_, _, rfl⟩

theorem startOnly_refsEnabled (s : State) (u : Nat) : StartOnly s (refsEnabled s u) ∧ ∀ v, leafOf (refsEnabled s u) v = leafOf s v := by
  refine foldl_keeps (fun a b => StartOnly a b ∧ ∀ v, leafOf b v = leafOf a v) (fun s => ⟨rfl, fun _ => rfl⟩)
    (fun a b c h k => ⟨h.1.trans k.1, fun v => (k.2 v).trans (h.2 v)⟩) _ _ _ fun s m => ?_
  rw [enableRef_onMeas]
  exact ⟨rfl, fun _ => rfl⟩

theorem startOnly_latchesCleared (s : State) (u : Nat) (stands : Bool) : StartOnly s (latchesCleared s u stands) :=
  foldl_keeps StartOnly StartOnly.refl (fun _ _ _ => StartOnly.trans) _ _ _ fun _ _ => rfl

theorem leafOf_latchesCleared (s : State) (u : Nat) (stands : Bool) (v : Nat) :
    leafOf (latchesCleared s u stands) v = if v ∈ groupOf s u then armLatches stands (leafOf s v) else leafOf s v :=
  leafOf_foldl _ (fun _ => armLatches stands) (fun s m x => leafOf_onLeaf s m x _) (fun _ _ => rfl) _ _ _

theorem startOnly_cellCleared (s : State) (u : Nat) : StartOnly s (cellCleared s u) ∧ ∀ v, leafOf (cellCleared s u) v = leafOf s v := by
  unfold cellCleared; split <;> exact ⟨rfl, fun _ => rfl⟩

theorem startOnly_armBegun (s : State) (u : Nat) : StartOnly s (armBegun s u) :=
  (startOnly_refsEnabled s u).1.trans <| (startOnly_latchesCleared _ u _).trans (startOnly_cellCleared _ u).1

theorem leafOf_armBegun (s : State) (u v : Nat) :
    leafOf (armBegun s u) v = if v ∈ groupOf s u then armLatches (tripStands s u) (leafOf s v) else leafOf s v := by
  obtain ⟨frame, leaves⟩ := startOnly_refsEnabled s u
  rw [armBegun, (startOnly_cellCleared _ u).2, leafOf_latchesCleared, leaves, groupOf_congr frame.hoops]

/-- A leaf is one of those that share its state. -/
theorem mem_groupOf (s : State) (u : Nat) : u ∈ groupOf s u := by
  unfold groupOf
  cases hp : parallelOf s u with
  | none => exact List.mem_singleton_self u
  | some p => exact mem_of_parallelOf hp

/-- The latches cleared show in the unit as it is. -/
theorem vleaf_armBegun (h : Leads s u) : vleaf (armBegun s u) u = armLatches (tripStands s u) (vleaf s u) := by
  refine vleaf_map h (armLatches (tripStands s u)) (fun _ _ _ _ => rfl) (startOnly_armBegun s u).hoops ?_ fun v => ?_
  · rw [leafOf_armBegun, if_pos (mem_groupOf s u)]
  · rw [leafOf_armBegun]
    split <;> exact ⟨rfl, rfl, rfl⟩

theorem startOnly_armLeaf (s : State) (u : Nat) (byRetry : Bool) : StartOnly s (armLeaf s u byRetry) := by
  obtain ⟨n, m, e⟩ := armLeaf_eq s u byRetry
  rw [e]
  exact (startOnly_armBegun s u).trans <| (startOnly_onV _ u _).trans <|
    (startOnly_pressUrgent _ n).trans (startOnly_pressUrgent _ m)

theorem armLeaf_press (s : State) (u : Nat) (byRetry : Bool) :
    (armLeaf s u byRetry).press = (onV (armBegun s u) u (armWrite byRetry)).press := by
  obtain ⟨n, m, e⟩ := armLeaf_eq s u byRetry
  rw [e, pressUrgent_press, pressUrgent_press]

theorem leafOf_armLeaf (s : State) (u : Nat) (byRetry : Bool) (v : Nat) :
    leafOf (armLeaf s u byRetry) v = leafOf (onV (armBegun s u) u (armWrite byRetry)) v := by
  unfold leafOf; rw [armLeaf_press]

/-- A unit that has entered ARM is seen with its latches cleared and as the entry wrote it. -/
theorem vleaf_armLeaf (h : Leads s u) (hu : (vleaf s u).st ≠ .retired) (byRetry : Bool) :
    vleaf (armLeaf s u byRetry) u = keepsDiag (armBegun s u) u (armWrite byRetry (armLatches (tripStands s u) (vleaf s u))) := by
  have before := vleaf_armBegun h
  have seen := vleaf_onV (h.congr (startOnly_armBegun s u).hoops) (by rw [before]; exact hu) (armWrite byRetry) (by simp [armWrite])
  rw [before] at seen
  rw [← seen]
  exact vleaf_congr (by rw [armLeaf_press]) (leafOf_armLeaf s u byRetry)

/-- The entry to ARM leaves a leading leaf's OFF latch cleared, and its TRIP latch where the trip cell stands or the clock has failed. -/
theorem latches_armLeaf (h : Leads s u) (byRetry : Bool) : (leafOf (armLeaf s u byRetry) u).offLatch = false
    ∧ (leafOf (armLeaf s u byRetry) u).tripLatch = ((leafOf s u).tripClock || tripStands s u) := by
  obtain ⟨_, _, _, _, written⟩ := leafOf_onV_leads (h.congr (startOnly_armBegun s u).hoops) (armWrite byRetry) (by simp [armWrite])
  obtain ⟨_, _, _, own⟩ := vleaf_leads h
  rw [leafOf_armLeaf, written, vleaf_armBegun h, own]
  exact ⟨rfl, rfl⟩

theorem leafOf_armLeaf_outside (byRetry : Bool) {v : Nat} (hv : v ∉ groupOf s u) : leafOf (armLeaf s u byRetry) v = leafOf s v := by
  have outside : v ∉ groupOf (armBegun s u) u := by rwa [groupOf_congr (startOnly_armBegun s u).hoops]
  rw [leafOf_armLeaf, onV, leafOf_putv_other _ _ _ _ outside, leafOf_armBegun, if_neg hv]

/-! ## The end of COOL -/

/-- A unit whose retry may be taken: in COOL, its delay run out, its models below re-arm (R129). -/
structure RetryDue (s : State) (u : Nat) : Prop where
  cool : (vleaf s u).st = .cool
  delay : (vleaf s u).retryUs = 0
  models : rearmed s u = true

/-- Something bars a retry (R40, R137, R226). -/
abbrev RetryBarred (s : State) (u : Nat) : Prop :=
  (vleaf s u).retryCancelled = true ∨ (vleaf s u).coolShed = true ∨ (vleaf s u).shedHeld = true ∨ noStart s u = true

theorem RetryDue.ne_retired (d : RetryDue s u) : (vleaf s u).st ≠ .retired := by rw [d.cool]; simp

/-- A retry that is barred leads to OFF, and touches the unit alone (R40, R137). -/
theorem retryOp_barred (h : Leads s u) (d : RetryDue s u) (bar : RetryBarred s u) :
    (vleaf (retryOp u s) u).st = .off ∧ (vleaf (retryOp u s) u).retryCancelled = false ∧ Within s (retryOp u s) u [] := by
  have write : retryOp u s = onV s u fun l => { l with st := .off, sub := 0, retryCancelled := false, coolShed := false } := by
    unfold retryOp
    dsimp only
    rw [if_pos ⟨d.cool, d.delay, d.models⟩, if_pos bar]
  rw [write, vleaf_onV h d.ne_retired _ (by simp)]
  exact ⟨by simp, by simp, within_onV _⟩

/-- A retry that nothing bars enters ARM and raises RETRY (R129). -/
theorem retryOp_arms (h : Leads s u) (d : RetryDue s u) (bar : ¬ RetryBarred s u) (whole : damagedMember s u = false) :
    retryOp u s = raiseP (armLeaf s u true) (eventUnit s u) evRetry (w32 (vleaf s u).retries) (w32 (vleaf s u).retryMs) 0 := by
  have enter : enterArm s u true = armLeaf s u true := by rw [enterArm, if_neg (by simp [whole])]
  have armed : (vleaf (armLeaf s u true) u).st = .arm := by rw [vleaf_armLeaf h d.ne_retired, keepsDiag_st]; rfl
  unfold retryOp
  dsimp only
  rw [if_pos ⟨d.cool, d.delay, d.models⟩, if_neg bar, enter, if_pos armed]

/-- What a unit that enters ARM by a retry keeps and what it loses (R112, R121, R129). -/
theorem retryOp_vleaf (h : Leads s u) (d : RetryDue s u) (bar : ¬ RetryBarred s u) (whole : damagedMember s u = false) :
    (vleaf (retryOp u s) u).st = .arm ∧ (vleaf (retryOp u s) u).faultT = 0 ∧ (vleaf (retryOp u s) u).cause = (vleaf s u).cause
      ∧ (vleaf (retryOp u s) u).mask = (vleaf s u).mask ∧ (vleaf (retryOp u s) u).retries = (vleaf s u).retries := by
  rw [retryOp_arms h d bar whole, vleaf_raiseP, vleaf_armLeaf h d.ne_retired, keepsDiag_st, keepsDiag_faultT, keepsDiag_cause, keepsDiag_mask,
    keepsDiag_retries]
  exact ⟨rfl, rfl, rfl, rfl, rfl⟩

theorem retryOp_evq (h : Leads s u) (d : RetryDue s u) (bar : ¬ RetryBarred s u) (whole : damagedMember s u = false) :
    (retryOp u s).press.evq = s.press.evq ++ [pressEvent s (eventUnit s u) evRetry (w32 (vleaf s u).retries) (w32 (vleaf s u).retryMs) 0] := by
  have start := startOnly_armLeaf s u true
  rw [retryOp_arms h d bar whole, raiseP_evq, start.evq]
  simp only [pressEvent, start.byRule]

/-- An event raised after a start is one more change of the Press. -/
theorem StartOnly.raised {a t : State} (h : StartOnly s a) {src code : Nat} {x y z : Word32} (ht : t = raiseP a src code x y z) :
    t = { s with press := t.press, cmp := t.cmp, meas := t.meas } := by
  have raised : t = { a with press := t.press } := by rw [ht]; rfl
  have cmp : t.cmp = a.cmp := by rw [ht]; rfl
  have meas : t.meas = a.meas := by rw [ht]; rfl
  unfold StartOnly at h
  rw [cmp, meas, raised, h]

theorem retryOp_frame (h : Leads s u) (d : RetryDue s u) (bar : ¬ RetryBarred s u) (whole : damagedMember s u = false) :
    retryOp u s = { s with press := (retryOp u s).press, cmp := (retryOp u s).cmp, meas := (retryOp u s).meas } :=
  (startOnly_armLeaf s u true).raised (retryOp_arms h d bar whole)

/-! ## The ends of ARM, and the clean interval -/

/-- A unit in ARM that is turned off without a protective cause goes to OFF, its attempt ending with the status given (R138). -/
theorem toOff_arm (h : Leads s u) (ha : (vleaf s u).st = .arm) (ended : Nat) :
    (vleaf (toOff s u false false ended) u).st = .off ∧ (vleaf (toOff s u false false ended) u).ended = ended
      ∧ Within (holdOffEnds s u) (toOff s u false false ended) u [] := by
  have stays : leaveLimit s u = s := by rw [leaveLimit, if_neg (by rw [ha]; simp)]
  have write : toOff s u false false ended =
      onV (holdOffEnds s u) u fun l => { turnedOff (leafKind u) false false .off l with ended := ended } := by
    rw [toOff, if_pos (by rw [ha]; rfl), stays]
  have live : (vleaf (holdOffEnds s u) u).st ≠ .retired := by rw [vleaf_holdOffEnds, ha]; simp
  rw [write, vleaf_onV (h.congr (pressOnly_holdOffEnds s u).hoops) live _ (by simp)]
  exact ⟨by simp, by simp, within_onV _⟩

/-- An event raised before the end of a release is raised in the unit's frame after it. -/
theorem within_holdOffEnds_raiseP {t : State} {src code : Nat} {x y z : Word32}
    (w : Within (holdOffEnds (raiseP s src code x y z) u) t u []) : Within (holdOffEnds s u) t u [pressEvent s src code x y z] := by
  have order : holdOffEnds (raiseP s src code x y z) u = raiseP (holdOffEnds s u) src code x y z := by unfold holdOffEnds; split <;> rfl
  have event : pressEvent (holdOffEnds s u) src code x y z = pressEvent s src code x y z := by unfold holdOffEnds; split <;> rfl
  obtain ⟨frame, evq, leaves⟩ := w
  rw [order] at frame evq leaves
  refine ⟨(leavesOnly_raiseP _ _ _ _ _ _).trans frame, ?_, leaves⟩
  rw [evq, raiseP_evq, event, List.append_nil]

/-- A unit in ARM whose first failing check is no wait is refused, and goes to OFF (R158). -/
theorem preflightOp_refuses {k : Nat} (ha : (vleaf s u).st = .arm) (hus : tickUs s ≤ (vleaf s u).armUs)
    (href : refAwaited s u = false) (hk : preflightCheck s u = some k) (h3 : k ≠ 3) : ∃ p1 p2,
    preflightOp u s = toOff (raiseP s (eventUnit s u) evPreflightRefuse (w32 k) p1 p2) u false false stPreflight := by
  unfold preflightOp
  dsimp only
  rw [if_pos ⟨ha, hus, by simp [href]⟩, hk]
  split
  · next e => cases e
  · next e => exact absurd (Option.some.inj e) h3
  · next e => cases e; exact ⟨_, _, rfl⟩

/-- The clean interval gives a retry back to a unit in ON, and restarts (R130). -/
theorem cleanOp_on (h : Leads s u) (hon : (vleaf s u).st = .on) (ht : soft s u fCleanInt * 1000000 ≤ (vleaf s u).cleanT) :
    (vleaf (cleanOp u s) u).retries = (vleaf s u).retries - 1 ∧ (vleaf (cleanOp u s) u).cleanT = 0 ∧ (vleaf (cleanOp u s) u).st = .on
      ∧ Within s (cleanOp u s) u [] := by
  have live : (vleaf s u).st ≠ .retired := by rw [hon]; simp
  rw [cleanOp, if_pos ht, vleaf_onV h live _ live]
  exact ⟨by simp, by simp, by simp [hon], within_onV _⟩

/-! ## The statement -/

/-- A row about a leaf of the part is carried out by its operation, while the device works on its clocks. -/
theorem does_leafRow {c : Instr} {op : State → State} {P : State → Prop} (hc : clocked s = true) (hu : u < 71)
    (row : exec c s = leafRow u op s) (h : P (op s)) : Does c s P := ⟨op s, row.trans (leafRow_does hc hu), h⟩

end

/-- Settles O2: the timer's trip by what step 1 finds, the damage lock, the retry, and the ends of ARM, each by the rule of its operation. -/
theorem faultTimerRetriesAndArm : Obligations.FaultTimerRetriesAndArm := by
  refine ⟨?trips, ?locks, ?retries, ?arms, ?seat, ?preflight, ?clean⟩
  case trips =>
    intro s u hc h hcond ht quiet
    refine does_leafRow (op := faultTimerExpiryOp u) hc h.1 rfl ?_
    split
    · next due =>
      obtain ⟨t, leads, conducting, tripped⟩ := faultTimerExpiryOp_trips h hcond ((faultDue_iff hcond ht).mpr due) quiet
      obtain ⟨mask, small⟩ := standingCauses_faultTime s u
      obtain ⟨cause, causes, -⟩ := trip_marks leads conducting small
      rw [tripped, causes, cause]
      refine ⟨mask.trans (Nat.add_assoc _ _ _).symm, rfl, ?_⟩
      rw [trip_st leads conducting]
      split
      · exact .inl rfl
      · exact .inr rfl
    · next early => rw [faultTimerExpiryOp, if_neg fun due => early ((faultDue_iff hcond ht).mp due)]
  case locks =>
    intro s u hc hu hp hcond ht due hd
    have solo : Solo s u := ⟨by omega, hp⟩
    have seen := vleaf_solo hp
    have expired : faultDue s u = true := (faultDue_iff (seen ▸ hcond) ht).mpr (seen ▸ due)
    have locked := faultTimerExpiryOp_locks solo (kind_channel hu) hcond expired hd
    exact does_leafRow (op := faultTimerExpiryOp u) hc solo.1 rfl ⟨locked.st, locked.sub, locked.cause⟩
  case retries =>
    intro s u hc h hcool hdelay hmodels whole
    have due : RetryDue s u := ⟨hcool, hdelay, hmodels⟩
    refine does_leafRow (op := retryOp u) hc h.1 rfl ?_
    split
    · next bar => exact retryOp_barred h due bar
    · next bar =>
      obtain ⟨arm, timer, cause, mask, count⟩ := retryOp_vleaf h due bar whole
      obtain ⟨off, tripped⟩ := latches_armLeaf h true
      have leaves : ∀ v, leafOf (retryOp u s) v = leafOf (armLeaf s u true) v := fun v => by
        rw [retryOp_arms h due bar whole, leafOf_raiseP]
      rw [leaves u]
      exact ⟨arm, timer, cause, mask, off, tripped, count, retryOp_evq h due bar whole, retryOp_frame h due bar whole,
        fun v hv => (leaves v).trans (leafOf_armLeaf_outside true hv)⟩
  case arms =>
    intro s u hc h hcool hdelay hmodels whole hcancel hshed hheld hstart
    have bar : ¬ RetryBarred s u := by simp [hcancel, hshed, hheld, hstart]
    obtain ⟨arm, -, -, -, count⟩ := retryOp_vleaf h ⟨hcool, hdelay, hmodels⟩ bar whole
    exact does_leafRow (op := retryOp u) hc h.1 rfl ⟨arm, count⟩
  case seat =>
    intro s u hc h ha hseat hlate
    have off : tArmOp u s = toOff s u false false stSeat := if_pos ⟨ha, by simp [hseat], hlate⟩
    exact does_leafRow (op := tArmOp u) hc h.1 rfl (off ▸ toOff_arm h ha stSeat)
  case preflight =>
    intro s u k hc h ha hus href hk h3
    obtain ⟨p1, p2, refused⟩ := preflightOp_refuses ha hus href hk h3
    obtain ⟨off, ended, within⟩ := toOff_arm (s := raiseP s (eventUnit s u) evPreflightRefuse (w32 k) p1 p2) (h.congr rfl)
      (by rw [vleaf_raiseP, ha]) stPreflight
    rw [← refused] at off ended within
    exact does_leafRow (op := preflightOp u) hc h.1 rfl ⟨off, ended, p1, p2, within_holdOffEnds_raiseP within⟩
  case clean =>
    intro s u hc h hon ht
    exact does_leafRow (op := cleanOp u) hc h.1 rfl (cleanOp_on h hon ht)

end Sys2Proof.Machine
end
section
/-!
PROOF. The submission descriptor (R320): where each field stands in its 64 bytes, and what parsing them gives back.

Every field of the descriptor is given back. `fault` is none: it says how the transfer of the buffer goes (R300), no byte of the descriptor holds it, and the
fetch row writes it beside what `parseSub` reads. A submission with it set is therefore not what its bytes are parsed to.
-/

namespace Sys2Proof.Machine

/-! ## Bytes of a concatenation -/

@[simp] theorem length_toLe (v n : Nat) : (toLe v n).length = n := by
  induction n generalizing v with
  | zero => rfl
  | succ n ih => rw [toLe, List.length_cons, ih]

@[simp] theorem length_slice (bs : List Byte) (i n : Nat) : (slice bs i n).length = n := by simp [slice]

/-- Bytes read beyond a prefix are bytes of what follows it. -/
theorem leAt_append {p : List Byte} {i : Nat} (h : p.length ≤ i) (bs : List Byte) (n : Nat) :
    leAt (p ++ bs) i n = leAt bs (i - p.length) n := by
  induction n generalizing i with
  | zero => rfl
  | succ n ih =>
    rw [leAt, leAt, ih (by omega), byteAt, byteAt, List.getD_eq_getElem?_getD, List.getD_eq_getElem?_getD,
      List.getElem?_append_right h, Nat.sub_add_comm h]

/-- Byte numbers count on past the first byte. -/
@[simp] theorem leAt_cons (b : Byte) (bs : List Byte) (i n : Nat) : leAt (b :: bs) (i + 1) n = leAt bs i n :=
  leAt_append (p := [b]) (Nat.le_add_left 1 i) bs n

/-- A number written at the front is read back, modulo what its bytes hold (R5). -/
@[simp] theorem leAt_toLe (v n : Nat) (bs : List Byte) : leAt (toLe v n ++ bs) 0 n = v % 256 ^ n := by
  induction n generalizing v with
  | zero => exact (Nat.mod_one v).symm
  | succ n ih =>
    have low : byteAt (toLe v (n + 1) ++ bs) 0 = v % 256 := BitVec.toNat_ofNat v 8
    have high : leAt (toLe v (n + 1) ++ bs) 1 n = v / 256 % 256 ^ n := (leAt_cons _ _ 0 n).trans (ih (v / 256))
    rw [leAt, low, high, Nat.pow_succ', Nat.mod_mul]

/-- A slice that ends where the bytes end is their tail. -/
theorem slice_eq_drop {bs : List Byte} {i n : Nat} (h : bs.length = i + n) : slice bs i n = bs.drop i := by
  apply List.ext_getElem
  · simp [h]
  · intro k hk _
    have inside : i + k < bs.length := by simp at hk; omega
    simp [slice, inside]

/-! ## The descriptor -/

theorem length_encodeSub (opcode : Nat) (d : Submission) : (encodeSub opcode d).length = 64 := by simp [encodeSub]

/-- Each field stands at the bytes R320 gives it; the opcode, a number of the row's own, is reduced to its byte. -/
theorem encodeSub_layout (opcode : Nat) {d : Submission} (h : d.wf = true) :
    byteAt (encodeSub opcode d) 0 = opcode % 256 ∧ (encodeSub opcode d).getD 1 0 = d.flags
      ∧ leAt (encodeSub opcode d) 2 2 = d.tag + 4096 * d.gen ∧ leAt (encodeSub opcode d) 4 4 = d.handle.toNat
      ∧ leAt (encodeSub opcode d) 8 8 = d.time ∧ leAt (encodeSub opcode d) 16 8 = d.bufAddr ∧ leAt (encodeSub opcode d) 24 4 = d.bufLen
      ∧ (encodeSub opcode d).drop 28 = d.args := by
  obtain ⟨-, htag, hgen, htime, haddr, hlen, hargs⟩ := of_decide_eq_true h
  have hhandle : d.handle.toNat < 4294967296 := d.handle.isLt
  have tags : d.tag + 4096 * d.gen < 65536 := by omega
  have args : slice d.args 0 36 = d.args := slice_eq_drop hargs
  rw [encodeSub, args]
  refine ⟨BitVec.toNat_ofNat opcode 8, rfl, ?tag, ?handle, ?time, ?addr, ?len, by simp [List.drop_append, List.drop_eq_nil_of_le]⟩
  all_goals simp [leAt_append, Nat.mod_eq_of_lt, tags, hhandle, htime, haddr, hlen]

/-- A submission written out is parsed to itself, with the transfer's `fault` written beside it as the fetch row does (R300, R320). -/
theorem parseSub_encodeSub (opcode : Nat) {d : Submission} (h : d.wf = true) :
    { parseSub d.sq (encodeSub opcode d) d.data with fault := d.fault } = d := by
  obtain ⟨-, flags, tag, handle, time, addr, len, args⟩ := encodeSub_layout opcode h
  obtain ⟨-, htag, -⟩ := of_decide_eq_true h
  have low : (d.tag + 4096 * d.gen) % 4096 = d.tag := by omega
  have high : (d.tag + 4096 * d.gen) / 4096 = d.gen := by omega
  have word : w32 d.handle.toNat = d.handle := by simp [w32]
  have all : slice (encodeSub opcode d) 28 36 = d.args := (slice_eq_drop (length_encodeSub opcode d)).trans args
  rw [parseSub, flags, tag, handle, time, addr, len, low, high, word, all]

/-- The bytes alone give a submission back exactly when its buffer's transfer meets no fault. -/
theorem parseSub_encodeSub_eq_iff (opcode : Nat) {d : Submission} (h : d.wf = true) :
    parseSub d.sq (encodeSub opcode d) d.data = d ↔ d.fault = false := by
  refine ⟨fun back => (congrArg Submission.fault back).symm, fun clean => ?_⟩
  have back := parseSub_encodeSub opcode h
  rw [clean] at back
  exact back

/-- Refutes O59: `Submission.wf` leaves `fault` free, and no byte of the descriptor holds it, so NOP with a buffer whose transfer fails is parsed to one
whose transfer does not. -/
theorem not_descriptorRoundTrip : ¬ Obligations.DescriptorRoundTrip := by
  unfold Obligations.DescriptorRoundTrip
  intro h
  let d : Submission := { sq := 0, flags := 0, tag := 0, gen := 0, handle := 0, time := 0, bufAddr := 4096, bufLen := 64,
                          args := List.replicate 36 0, data := [], fault := true }
  have wf : d.wf = true := by decide
  obtain ⟨-, back⟩ := h 0 d (by decide) wf
  exact absurd ((parseSub_encodeSub_eq_iff 0 wf).mp back) (by decide)

end Sys2Proof.Machine
end

section
/-!
PROOF. A command of the host that is ready runs at once, also where its buffer is staged first (R19, R294), and what its completion leaves of the state
(R323, R324).
-/

namespace Sys2Proof.Machine

/-! ## What an answer reads and leaves -/

theorem LinkOnly.trans {a b c : State} (h : LinkOnly a b) (k : LinkOnly b c) : LinkOnly a c := by unfold LinkOnly at *; rw [k, h]

theorem VatOnly.linkOnly {s t : State} (h : VatOnly s t) : LinkOnly s t := by unfold VatOnly at h; unfold LinkOnly; rw [h]

theorem LinkOnly.press {s t : State} (h : LinkOnly s t) : t.press = s.press := by rw [h]
theorem LinkOnly.meas {s t : State} (h : LinkOnly s t) : t.meas = s.meas := by rw [h]

theorem vatOnly_syncCqTiles (s : State) (q : Nat) : VatOnly s (syncCqTiles s q) := by
  unfold syncCqTiles
  split
  · exact vatOnly_syncTiles ..
  · rfl

theorem linkOnly_pushCompletion (s : State) (c : Completion) : LinkOnly s (pushCompletion s c) :=
  LinkOnly.trans (b := s.onLink _) rfl (vatOnly_syncCqTiles ..).linkOnly

@[simp] theorem pushCompletion_rings (s : State) (c : Completion) : (pushCompletion s c).link.rings = s.link.rings := by
  simp [pushCompletion]

theorem linkOnly_dropXfers (s : State) (gone : Xfer → Bool) : LinkOnly s (dropXfers s gone) :=
  LinkOnly.trans (b := s.onLink _) rfl (dropXfers_vatOnly s gone).linkOnly

theorem linkOnly_dropFlight (s : State) (id : Nat) : LinkOnly s (dropFlight s id) := by
  unfold dropFlight
  exact LinkOnly.trans (LinkOnly.trans (b := s.onLink _) rfl (vatOnly_freeRefs ..).linkOnly) (linkOnly_dropXfers ..)

/-- The in-flight entry of a command of the host whose buffer stands in the bulk tiles given. -/
def stagedFlight (s : State) (op : Op) (sub : Submission) (rs : List (Nat × Nat)) : Flight := { flightFor s op sub with tiles := rs }

section
variable (s t : State) (op : Op) (sub : Submission) (rs : List (Nat × Nat)) (status : Nat) (result : Word32)

@[simp] theorem stagedFlight_sub : (stagedFlight s op sub rs).sub = sub := rfl

theorem linkOnly_doneWith : LinkOnly t (doneWith t (stagedFlight s op sub rs) status result) :=
  LinkOnly.trans (linkOnly_dropFlight t s.link.nextFlight) (linkOnly_pushCompletion ..)

@[simp] theorem doneWith_press : (doneWith t (stagedFlight s op sub rs) status result).press = t.press := (linkOnly_doneWith ..).press
@[simp] theorem doneWith_meas : (doneWith t (stagedFlight s op sub rs) status result).meas = t.meas := (linkOnly_doneWith ..).meas

@[simp] theorem doneWith_rings : (doneWith t (stagedFlight s op sub rs) status result).link.rings = t.link.rings :=
  (pushCompletion_rings ..).trans (dropFlight_rings t s.link.nextFlight)
end

/-- From `s` to `t` the Press, the completions that wait and the registers by which rings are set up are as they were. -/
structure QueuesKept (s t : State) : Prop where
  press : t.press = s.press
  held : t.link.cqHeld = s.link.cqHeld
  cfg : ∀ i, (ringOf t i).cfg = (ringOf s i).cfg

theorem QueuesKept.refl (s : State) : QueuesKept s s := ⟨rfl, rfl, fun _ => rfl⟩

theorem QueuesKept.trans {a b c : State} (h : QueuesKept a b) (k : QueuesKept b c) : QueuesKept a c :=
  ⟨k.press.trans h.press, k.held.trans h.held, fun i => (k.cfg i).trans (h.cfg i)⟩

/-- The same, the later step named first. -/
theorem QueuesKept.after {a b c : State} (k : QueuesKept b c) (h : QueuesKept a b) : QueuesKept a c := h.trans k

theorem QueuesKept.of_rings {s t : State} (press : t.press = s.press) (held : t.link.cqHeld = s.link.cqHeld) (rings : t.link.rings = s.link.rings) :
    QueuesKept s t := ⟨press, held, fun i => by rw [ringOf, ringOf, rings]⟩

theorem QueuesKept.of_link {s t : State} (press : t.press = s.press) (link : t.link = s.link) : QueuesKept s t :=
  .of_rings press (by rw [link]) (by rw [link])

theorem VatOnly.queues {s t : State} (h : VatOnly s t) : QueuesKept s t := by rw [h]; exact ⟨rfl, rfl, fun _ => rfl⟩

theorem QueuesKept.cq {s t : State} (k : QueuesKept s t) (q : Nat) : cqOf t q = cqOf s q := congrArg RingRec.cq (k.cfg q)

/-- A command completes after work that has kept the queues: its entry stands behind those that waited as it came. -/
theorem doneWith_answers_of_queuesKept {s t : State} (k : QueuesKept s t) (op : Op) (sub : Submission) (rs : List (Nat × Nat)) (status : Nat)
    (result : Word32) : Answers s (doneWith t (stagedFlight s op sub rs) status result) sub status result := by
  obtain ⟨entry, left⟩ := doneWith_answers (t.onLink fun l => { l with nextFlight := s.link.nextFlight }) t op sub status result rfl rfl
  refine ⟨?_, left⟩
  rw [← k.cq, ← k.held]
  exact entry

/-! ## The state word (R36, R344) -/

section
variable {s t : State}

theorem flatten_congr (h : t.press = s.press) (n : Nat) : flatten t n = flatten s n := by
  induction n with
  | zero => rfl
  | succ n ih => funext u; simp only [flatten, hoopOf, h, ih]

theorem aggOf_congr (h : t.press = s.press) (n : Nat) : aggOf t n = aggOf s n := by
  induction n with
  | zero => rfl
  | succ n ih => funext u; simp only [aggOf, hoopOf, leafOf, h, ih]

theorem unitAgg_congr (h : t.press = s.press) (u : Nat) : unitAgg t u = unitAgg s u := by
  have top : topLevel t = topLevel s := by unfold topLevel leafOf; rw [h]
  simp only [unitAgg, top, aggOf_congr h]

theorem unitPg_congr (h : t.press = s.press) (u : Nat) : unitPg t u = unitPg s u := by
  simp only [unitPg, maskOf, leafOf, h, flatten_congr h]

/-- The state word is a matter of the Press. -/
theorem stateWord_congr (h : t.press = s.press) (u : Nat) : stateWord t u = stateWord s u := by
  have leaf : ∀ v, leafOf t v = leafOf s v := fun v => by rw [leafOf, leafOf, h]
  have unit : ∀ v, vleaf t v = vleaf s v := fun v => vleaf_congr (congrArg Press.hoops h) leaf
  unfold stateWord genOf seqActive hoopOf
  simp only [h, leaf, unit, unitAgg_congr h, unitPg_congr h]

theorem defaultResult_congr (h : t.press = s.press) (f : Flight) : defaultResult t f = defaultResult s f := by
  simp only [defaultResult, stateWord_congr h]
end

/-- A command completes with the RESULT of R344 after work that has kept the queues. -/
theorem done_answers_of_queuesKept {s t : State} (k : QueuesKept s t) (op : Op) (sub : Submission) (rs : List (Nat × Nat)) (status : Nat) :
    Answers s (done t (stagedFlight s op sub rs) status) sub status (defaultResult s (flightFor s op sub)) := by
  have same : defaultResult t (stagedFlight s op sub rs) = defaultResult s (flightFor s op sub) := defaultResult_congr k.press _
  rw [done, same]
  exact doneWith_answers_of_queuesKept k ..

theorem done_refused_of_queuesKept {s t : State} (k : QueuesKept s t) (op : Op) (sub : Submission) (rs : List (Nat × Nat)) (status : Nat) :
    Refused s (done t (stagedFlight s op sub rs) status) op sub status :=
  ⟨done_answers_of_queuesKept k .., (doneWith_press ..).trans k.press⟩

/-! ## Buffers in bulk tiles (R19, R285, R289, R294) -/

/-- A tile that its holder fills or has closed, and that can be read through its reference. -/
structure Sound (s : State) (r : Nat × Nat) : Prop where
  whole : r.1 ∉ s.vat.bad
  gen : (tagOf s r.1).gen = r.2
  clean : (tagOf s r.1).poison = false
  used : (tagOf s r.1).state = .filling ∨ (tagOf s r.1).state = .closed

theorem Sound.readable {s : State} {r : Nat × Nat} (h : Sound s r) : unreadable s r = false := by
  have honour : honoured s r = true := by
    unfold honoured
    rcases h.used with e | e <;> simp [e, h.gen]
  simp [unreadable, h.whole, honour, h.clean]

theorem Sound.of_vat {s t : State} {r : Nat × Nat} (h : Sound s r) (same : t.vat = s.vat) : Sound t r := by
  have tag : tagOf t r.1 = tagOf s r.1 := by rw [tagOf, tagOf, same]
  exact ⟨by rw [same]; exact h.whole, by rw [tag]; exact h.gen, by rw [tag]; exact h.clean, by rw [tag]; exact h.used⟩

theorem tagOf_setTag (s : State) (t u : Nat) (g : Tag) : tagOf (setTag s t g) u = if u = t then g else tagOf s u := Tbl.get_put ..

/-- Closing a tile leaves every tile that could be read so. -/
theorem Sound.closeRef {s : State} {r : Nat × Nat} (h : Sound s r) (x : Nat × Nat) (bs : List Byte) : Sound (closeRef s x (some bs)) r := by
  have tag : tagOf (Machine.closeRef s x (some bs)) r.1 = if r.1 = x.1 then tileClosed (tagOf s x.1) (crc32c (slice bs 0 512)) else tagOf s r.1 :=
    tagOf_setTag ..
  by_cases e : r.1 = x.1
  · rw [if_pos e, ← e] at tag
    exact ⟨h.whole, by rw [tag]; exact h.gen, by rw [tag]; exact h.clean, by rw [tag]; exact .inr rfl⟩
  · rw [if_neg e] at tag
    exact ⟨h.whole, by rw [tag]; exact h.gen, by rw [tag]; exact h.clean, by rw [tag]; exact h.used⟩

theorem sound_closeRefs {s : State} {r : Nat × Nat} (h : Sound s r) (rs : List (Nat × Nat)) (bs : List Byte) : Sound (closeRefs rs bs s) r :=
  foldl_keeps (fun s t => Sound s r → Sound t r) (fun _ => id) (fun _ _ _ f g => g ∘ f) _ _ _ (fun _ _ k => k.closeRef _ _) h

/-- Filling a tile leaves every other that could be read so. -/
theorem Sound.fillTile_ne {s : State} {r : Nat × Nat} (h : Sound s r) (holder : Nat) {t : Nat} (ne : r.1 ≠ t) : Sound (fillTile s holder t) r := by
  have tag : tagOf (fillTile s holder t) r.1 = tagOf s r.1 := (tagOf_setTag ..).trans (if_neg ne)
  exact ⟨fun m => h.whole ((List.mem_filter.mp m).1), by rw [tag]; exact h.gen, by rw [tag]; exact h.clean, by rw [tag]; exact h.used⟩

/-- A tile being filled can be read through the reference its holder has got. -/
theorem sound_fillTile (s : State) (holder t : Nat) : Sound (fillTile s holder t) (t, nextTileGen (tagOf s t).gen) := by
  have tag : tagOf (fillTile s holder t) t = tileFilling (tagOf s t) holder := (tagOf_setTag ..).trans (if_pos rfl)
  exact ⟨fun m => absurd (List.mem_filter.mp m).2 (by simp), by rw [tag]; rfl, by rw [tag]; rfl, by rw [tag]; exact .inl rfl⟩

theorem refsOf_fillTile (s : State) (holder t : Nat) :
    refsOf (fillTile s holder t) holder = ((refsOf s holder).filter fun r => r.1 != t) ++ [(t, nextTileGen (tagOf s t).gen)] := by
  have gen : (tagOf (setTag (s.onVat fun v => { v with bad := v.bad.filter (· != t) }) t (tileFilling (tagOf s t) holder)) t).gen
      = nextTileGen (tagOf s t).gen := by rw [tagOf_setTag, if_pos rfl]; rfl
  unfold fillTile
  dsimp only
  rw [gen]
  exact Tbl.get_put_same ..

/-- A holder has references that it had before, at most `n`, and behind them references through which it can read. -/
def Grown (n holder : Nat) (s : State) : Prop := ∃ old new, refsOf s holder = old ++ new ∧ old.length ≤ n ∧ ∀ r ∈ new, Sound s r

theorem grown_fillTile {n holder : Nat} {s : State} (h : Grown n holder s) (t : Nat) : Grown n holder (fillTile s holder t) := by
  obtain ⟨old, new, split, len, sound⟩ := h
  refine ⟨old.filter fun r => r.1 != t, (new.filter fun r => r.1 != t) ++ [(t, nextTileGen (tagOf s t).gen)], ?_,
    Nat.le_trans (List.length_filter_le ..) len, fun r m => ?_⟩
  · rw [refsOf_fillTile, split, List.filter_append, List.append_assoc]
  · rcases List.mem_append.mp m with m | m
    · obtain ⟨m, ne⟩ := List.mem_filter.mp m
      exact (sound r m).fillTile_ne holder (by simpa using ne)
    · rw [List.mem_singleton.mp m]
      exact sound_fillTile s holder t

theorem grown_allocTile {n holder : Nat} {s : State} (h : Grown n holder s) : Grown n holder (allocTile s holder) := by
  obtain ⟨old, new, split, len, sound⟩ := h
  unfold allocTile
  dsimp only
  split
  · exact ⟨old, new, split, len, sound⟩
  · exact grown_fillTile (s := (draw s).2) ⟨old, new, split, len, fun r m => (sound r m).of_vat rfl⟩ _

/-- Each tile a holder has just been given can be read. -/
theorem sound_takeTiles (holder n : Nat) (s : State) : ∀ r ∈ (takeTiles holder n s).2, Sound (takeTiles holder n s).1 r := by
  intro r m
  obtain ⟨old, new, split, len, sound⟩ : Grown (refsOf s holder).length holder (takeTiles holder n s).1 :=
    foldl_keeps (fun a b => Grown (refsOf s holder).length holder a → Grown (refsOf s holder).length holder b) (fun _ => id)
      (fun _ _ _ f g => g ∘ f) _ _ _ (fun _ _ => grown_allocTile) ⟨refsOf s holder, [], by simp, Nat.le_refl _, by simp⟩
  have m : r ∈ (old ++ new).drop (refsOf s holder).length := split ▸ m
  rw [List.drop_append, List.drop_eq_nil_of_le len, List.nil_append] at m
  exact sound r (List.mem_of_mem_drop m)

theorem sound_stageBytes (holder : Nat) (bs : List Byte) (s : State) : ∀ r ∈ (stageBytes holder bs s).2, Sound (stageBytes holder bs s).1 r :=
  fun r m => sound_closeRefs (sound_takeTiles holder _ s r m) _ _

/-! ## Staging a buffer (R19, R291, R294, R297) -/

theorem queuesKept_foldl {α : Type} {f : State → α → State} (l : List α) (s : State) (h : ∀ s x, QueuesKept s (f s x)) : QueuesKept s (l.foldl f s) :=
  foldl_keeps QueuesKept QueuesKept.refl (fun _ _ _ => QueuesKept.trans) f l s h

/-- From `s` to `t` nothing but tiles, translations and the count of free choices differs that a command which starts reads. -/
structure Prepares (s t : State) : Prop where
  frame : LinkOnly s t
  held : t.link.cqHeld = s.link.cqHeld
  rings : t.link.rings = s.link.rings
  flights : t.link.flights = s.link.flights

theorem Prepares.refl (s : State) : Prepares s s := ⟨rfl, rfl, rfl, rfl⟩

theorem Prepares.trans {a b c : State} (h : Prepares a b) (k : Prepares b c) : Prepares a c :=
  ⟨h.frame.trans k.frame, k.held.trans h.held, k.rings.trans h.rings, k.flights.trans h.flights⟩

theorem VatOnly.prepares {s t : State} (h : VatOnly s t) : Prepares s t := ⟨h.linkOnly, by rw [h], by rw [h], by rw [h]⟩

theorem prepares_atc (s : State) (f : Link → List (Nat × Nat)) : Prepares s (s.onLink fun l => { l with atc := f l }) := ⟨rfl, rfl, rfl, rfl⟩

theorem prepares_draw (s : State) : Prepares s (draw s).2 := ⟨rfl, rfl, rfl, rfl⟩

theorem prepares_useAddr (addr : Nat) (s : State) : Prepares s (useAddr addr s) := by
  unfold useAddr
  split
  · exact .refl s
  · exact (prepares_draw s).trans (prepares_atc ..)

theorem prepares_useRange (addr len : Nat) (s : State) : Prepares s (useRange addr len s) :=
  foldl_keeps Prepares Prepares.refl (fun _ _ _ => Prepares.trans) _ _ _ fun s _ => prepares_useAddr _ s

/-- Tiles entered with the command whose buffer they hold. -/
def holdTiles (id : Nat) (rs : List (Nat × Nat)) (s : State) : State :=
  s.onLink fun l => { l with flights := l.flights.map fun g => if g.id = id then { g with tiles := g.tiles ++ rs } else g }

theorem flightOf_holdTiles (id : Nat) (rs : List (Nat × Nat)) (s : State) :
    flightOf (holdTiles id rs s) id = (flightOf s id).map fun g => { g with tiles := g.tiles ++ rs } := by
  have same : ((fun g : Flight => g.id == id) ∘ fun g : Flight => if g.id = id then { g with tiles := g.tiles ++ rs } else g) = fun g => g.id == id := by
    funext g
    by_cases e : g.id = id <;> simp [e]
  unfold flightOf holdTiles
  rw [State.onLink_link, List.find?_map, same]
  refine Option.map_congr fun g m => if_pos ?_
  simpa using List.find?_some m

/-- The tiles that a command's buffer is read into, or that its data will pass through, can be read. -/
theorem stageBuffer_eq (f : Flight) (s : State) : ∃ t rs, Prepares s t ∧ (∀ r ∈ rs, Sound t r) ∧ stageBuffer f s = holdTiles f.id rs t := by
  unfold stageBuffer
  by_cases none : bufferRead f.op f.sub = 0
  · exact ⟨_, _, (vatOnly_takeTiles s 69 (bulkNeed f)).prepares, sound_takeTiles 69 (bulkNeed f) s, by simp only [none, if_true]; rfl⟩
  · exact ⟨_, _, (prepares_useRange ..).trans (vatOnly_stageBytes _ 69 (slice f.sub.data 0 (bufferRead f.op f.sub))).prepares,
      sound_stageBytes 69 (slice f.sub.data 0 (bufferRead f.op f.sub)) (useRange f.sub.bufAddr (bufferRead f.op f.sub) s),
      by simp only [none, if_false]; rfl⟩

/-! ## Starting (R321, R338) -/

/-- What a command that starts finds is as it was when it came, but for its own entry, its tag and its tiles. -/
theorem startOf_frame (s : State) (op : Op) (sub : Submission) : LinkOnly s (startOf s op sub) ∧ QueuesKept s (startOf s op sub) := by
  unfold startOf
  split
  · exact ⟨rfl, .of_rings rfl rfl rfl⟩
  · obtain ⟨t, rs, prep, -, staged⟩ := stageBuffer_eq (flightFor s op sub) (accepted s op sub)
    have frame : LinkOnly s t := LinkOnly.trans (b := accepted s op sub) rfl prep.frame
    rw [staged]
    exact ⟨LinkOnly.trans frame rfl, .of_rings frame.press prep.held prep.rings⟩

/-- A command that is ready and whose buffer is staged first does what its opcode says at once. -/
theorem startFlight_buffered {s : State} {op : Op} {sub : Submission} (h : HostReady s op sub) (need : bulkNeed (flightFor s op sub) ≠ 0) :
    ∃ rs, startFlight (flightFor s op sub) (accepted s op sub) = runOp (stagedFlight s op sub rs) (startOf s op sub) := by
  obtain ⟨-, -, -, -, -, -, fault, now, nvm, room, -, others⟩ := h
  obtain ⟨t, rs, prep, sound, staged⟩ := stageBuffer_eq (flightFor s op sub) (accepted s op sub)
  have start : startOf s op sub = stageBuffer (flightFor s op sub) (accepted s op sub) := if_neg need
  have found : flightOf (startOf s op sub) s.link.nextFlight = some (stagedFlight s op sub rs) := by
    have own : flightOf t s.link.nextFlight = some (flightFor s op sub) := by
      rw [← flightOf_accepted s op sub fun g m => (others g m).2.2, flightOf, flightOf, prep.flights]
    rw [start, staged]
    exact (flightOf_holdTiles s.link.nextFlight rs t).trans (by rw [own]; rfl)
  have readable : (stagedFlight s op sub rs).tiles.findIdx? (unreadable (startOf s op sub)) = none := by
    rw [List.findIdx?_eq_none_iff]
    intro r m
    exact ((sound r m).of_vat (by rw [start, staged]; rfl)).readable
  have avail : tilesAvailable (accepted s op sub) 69 (bulkNeed (flightFor s op sub)) = true := room.resolve_left need
  have power : (startOf s op sub).power = s.power := by rw [(startOf_frame s op sub).1]
  have begun : beginFlight (stagedFlight s op sub rs) (startOf s op sub) = runOp (stagedFlight s op sub rs) (startOf s op sub) := by
    unfold beginFlight applyOp
    rw [readable, power, if_neg (by simp [fault])]
    exact (if_neg nvm).trans (if_neg (by simp [now]))
  refine ⟨rs, ?_⟩
  have empty : ¬ ((!(flightFor s op sub).tiles.isEmpty) = true ∨ bulkNeed (flightFor s op sub) = 0) := by
    rintro (e | e)
    · cases e
    · exact need e
  unfold startFlight
  rw [if_neg empty, avail, ← start]
  dsimp only
  rw [show (flightFor s op sub).id = s.link.nextFlight from rfl, found]
  exact begun

theorem HostReady.now {s : State} {op : Op} {sub : Submission} (h : HostReady s op sub) : sub.time = 0 := by
  obtain ⟨-, -, -, -, -, -, -, now, -⟩ := h
  exact now

section
variable {c : Instr} {s : State} {op : Op} {sub : Submission} {P : State → Prop}

/-- A command that reads no buffer is carried out as its opcode says, from the state in which it is accepted. -/
theorem serves_plain {t : State} (row : exec c s = hostCommand op sub s) (h : HostReady s op sub)
    (run : runOp (stagedFlight s op sub []) (accepted s op sub) = t) (effect : P t)
    (plain : bulkNeed (flightFor s op sub) = 0 := by simp [bulkNeed, flightFor, bufferRead, tilesFor]) : Serves c s P :=
  ⟨t, by rw [row, hostCommand_ready h, startFlight_ready h plain, ← run]; rfl, effect⟩

/-- A command that reads a buffer is carried out as its opcode says, once the buffer stands in tiles. -/
theorem serves_buffered (row : exec c s = hostCommand op sub s) (h : HostReady s op sub) (need : bulkNeed (flightFor s op sub) ≠ 0)
    (effect : ∀ rs, P (runOp (stagedFlight s op sub rs) (startOf s op sub))) : Serves c s P := by
  obtain ⟨rs, run⟩ := startFlight_buffered h need
  exact ⟨_, by rw [row, hostCommand_ready h, run], effect rs⟩

theorem Serves.mono {Q : State → Prop} (h : Serves c s P) (weaker : ∀ t, P t → Q t) : Serves c s Q := by
  obtain ⟨t, next, effect⟩ := h
  exact ⟨t, next, weaker t effect⟩
end

end Sys2Proof.Machine
end

section
/-!
PROOF. What an event that enters the router (R375), and the end of a stream (R303, R328, R360), leave of the queues of completions.
-/

namespace Sys2Proof.Machine

/-! ## Events -/

@[simp] theorem syncStaging_link (s : State) : (syncStaging s).link = s.link := syncTiles_link ..

@[simp] theorem passBytes_link (s : State) (holder : Nat) (bs : List Byte) : (passBytes holder bs s).link = s.link := by rw [vatOnly_passBytes]

@[simp] theorem stageRec_link (s : State) (r : CaveRec) : (stageRec s r).link = s.link := by unfold stageRec; split <;> simp

@[simp] theorem programNow_link (s : State) (r : CaveRec) : (programNow s r).link = s.link := by
  unfold programNow
  dsimp only
  split <;> simp [latchBus]

@[simp] theorem commitRec_link (s : State) (r : CaveRec) : (commitRec s r).link = s.link := by unfold commitRec; split <;> simp

@[simp] theorem commitOpen_link (s : State) : (commitOpen s).link = s.link := by
  unfold commitOpen
  split
  · rfl
  · dsimp only; split <;> simp

@[simp] theorem record_link (s : State) (src code : Nat) (x y z : Word32) : (record s src code x y z).link = s.link := by
  unfold record
  dsimp only
  split
  case h_1 => rfl
  case h_2 => split <;> simp
  case h_3 =>
    split
    · split
      · split <;> simp
      · simp
    · simp

@[simp] theorem draw_link (s : State) : (draw s).2.link = s.link := rfl
@[simp] theorem drawWord_link (s : State) : (drawWord s).2.link = s.link := rfl

@[simp] theorem recordRuleEnd_link (s : State) : (recordRuleEnd s).link = s.link := by
  unfold recordRuleEnd
  dsimp only
  split <;> simp

@[simp] theorem busLatches_link (s : State) (code : Nat) : (busLatches s code).link = s.link := by
  unfold busLatches latchBus
  split
  · rfl
  · split
    · rfl
    · split <;> rfl

/-- A fold of steps that leave the link leaves it. -/
theorem link_foldl {α : Type} {f : State → α → State} (l : List α) (s : State) (h : ∀ s x, (f s x).link = s.link) : (l.foldl f s).link = s.link :=
  foldl_keeps (fun s t : State => t.link = s.link) (fun _ => rfl) (fun _ _ _ h k => Eq.trans k h) f l s h

@[simp] theorem fireCapture_link (s : State) (k src code t : Nat) : (fireCapture s k src code t).link = s.link := by
  unfold fireCapture
  dsimp only
  split <;> rfl

@[simp] theorem captureTriggers_link (s : State) (src code t : Nat) : (captureTriggers s src code t).link = s.link :=
  link_foldl _ _ fun s k => by
    split
    · exact fireCapture_link ..
    · rfl

@[simp] theorem seqTrigger_link (s : State) (id t : Nat) : (seqTrigger s id t).link = s.link := by
  unfold seqTrigger
  split
  · rfl
  · dsimp only
    split
    · rfl
    · split
      · rfl
      · split <;> rfl

@[simp] theorem seqTriggers_link (s : State) (src code t : Nat) : (seqTriggers s src code t).link = s.link :=
  link_foldl _ _ fun s k => by
    split
    · split
      · exact seqTrigger_link ..
      · rfl
    · rfl

theorem queuesKept_issueOwn (s : State) (op : Op) (sub : Submission) : QueuesKept s (issueOwn s op sub) := by
  unfold issueOwn
  split
  · exact .of_link (by rw [routerOnly_recordRuleEnd s]) (recordRuleEnd_link s)
  · exact .of_rings rfl rfl rfl

theorem queuesKept_ruleTriggers (s : State) (e : RawEvent) (t : Nat) : QueuesKept s (ruleTriggers s e t) := by
  unfold ruleTriggers
  split
  · split
    · exact .refl s
    · refine queuesKept_foldl _ _ fun s r => ?_
      unfold issueRule
      dsimp only
      split <;> exact queuesKept_issueOwn ..
  · exact .refl s

theorem queuesKept_onLink (s : State) (f : Link → Link) (held : (f s.link).cqHeld = s.link.cqHeld) (rings : (f s.link).rings = s.link.rings) :
    QueuesKept s (s.onLink f) := .of_rings rfl held rings

theorem queuesKept_syncEvTiles (s : State) (r : Nat) : QueuesKept s (syncEvTiles s r) := (vatOnly_syncTiles ..).queues

theorem queuesKept_closeEvTile (s : State) (r : Nat) : QueuesKept s (closeEvTile s r) := by
  unfold closeEvTile
  split
  · exact .refl s
  · exact (queuesKept_onLink s _ rfl rfl).trans (queuesKept_syncEvTiles ..)

theorem queuesKept_stageEvent (s : State) (r : Nat) (e : Event) : QueuesKept s (stageEvent s r e) := by
  unfold stageEvent
  split
  · exact queuesKept_onLink s _ rfl rfl
  · dsimp only
    split
    · exact ((queuesKept_onLink s _ rfl rfl).trans (queuesKept_syncEvTiles ..)).trans (queuesKept_closeEvTile ..)
    · exact (queuesKept_onLink s _ rfl rfl).trans (queuesKept_syncEvTiles ..)

theorem queuesKept_onRouter (s : State) (f : Router → Router) : QueuesKept s (s.onRouter f) := .of_link rfl rfl

theorem queuesKept_deliver (s : State) (e : RawEvent) (t : Nat) : QueuesKept s (deliver s e t) := by
  have refilled : QueuesKept s (refill s e.source t) := by
    unfold refill
    dsimp only
    split
    · exact .refl s
    · exact queuesKept_onRouter ..
  unfold deliver
  dsimp only
  refine refilled.trans ?_
  generalize refill s e.source t = s
  split
  · exact .refl s
  · split
    · exact queuesKept_onRouter ..
    · split
      · exact queuesKept_stageEvent ..
      · split
        · exact (queuesKept_onRouter ..).trans (queuesKept_stageEvent ..)
        · split
          · exact queuesKept_stageEvent ..
          · exact (queuesKept_onRouter ..).trans (queuesKept_onLink _ _ rfl rfl)

/-- An event that enters the router queues no completion; a rule's command that it issues is one more in flight. -/
theorem queuesKept_raise (s : State) (src code : Nat) (x y z : Word32) : QueuesKept s (raise s src code x y z) := by
  unfold raise enter ingress
  split
  · exact queuesKept_onRouter ..
  · refine .trans (.of_link ?_ ?_) (.trans (queuesKept_ruleTriggers ..) (queuesKept_deliver ..))
    · rw [routerOnly_seqTriggers, routerOnly_captureTriggers, routerOnly_busLatches, routerOnly_record]; rfl
    · simp

/-! ## Rings and pages -/

theorem queuesKept_onMeas (s : State) (f : Measure → Measure) : QueuesKept s (s.onMeas f) := .of_link rfl rfl

/-- A change of a ring's registers that leaves what it was set up with. -/
theorem queuesKept_onRing (s : State) (i : Nat) {f : Ring → Ring} (h : ∀ r, (f r).cfg = r.cfg) : QueuesKept s (onRing s i f) := by
  refine ⟨rfl, rfl, fun j => ?_⟩
  have ring : ringOf (onRing s i f) j = if j = i then f (ringOf s i) else ringOf s j := Tbl.get_put ..
  rw [ring]
  split
  · next e => rw [h, e]
  · rfl

theorem queuesKept_advanceRing (s : State) (i : Nat) : QueuesKept s (advanceRing s i) := by
  unfold advanceRing
  exact queuesKept_onRing s i fun r => by split <;> rfl

theorem queuesKept_hostWrite (s : State) (addr : Nat) (bs : List Byte) : QueuesKept s (hostWrite s addr bs) := queuesKept_onLink s _ rfl rfl

theorem queuesKept_useAddr (s : State) (addr : Nat) : QueuesKept s (useAddr addr s) :=
  have prep := prepares_useAddr addr s
  .of_rings prep.frame.press prep.held prep.rings

theorem queuesKept_sendMsi (s : State) (v : Nat) : QueuesKept s (sendMsi s v) := by
  unfold sendMsi
  dsimp only
  split
  · exact .refl s
  · split
    · exact queuesKept_onLink s _ rfl rfl
    · exact queuesKept_hostWrite ..

theorem queuesKept_countEntry (s : State) (i : Nat) : QueuesKept s (countEntry s i) := by
  unfold countEntry
  split
  · dsimp only
    split
    · exact .after (queuesKept_sendMsi ..) <| .after (queuesKept_onRing _ i fun _ => rfl) <| queuesKept_onRing s i fun _ => rfl
    · exact queuesKept_onRing s i fun _ => rfl
  · exact .refl s

theorem queuesKept_reportPage (r : Nat) (last : Bool) (s : State) : QueuesKept s (reportPage r last s) := by
  unfold reportPage
  split
  · exact .refl s
  · split
    · exact .refl s
    · exact .after (queuesKept_countEntry ..) <| .after (queuesKept_onMeas ..) <| .after (queuesKept_advanceRing ..) <|
        .after (queuesKept_onRing _ _ fun _ => rfl) <| .after (queuesKept_hostWrite ..) <| queuesKept_useAddr ..

theorem queuesKept_reportOrWait (r : Nat) (s : State) : QueuesKept s (reportOrWait r s) := by
  unfold reportOrWait
  split
  · exact queuesKept_reportPage ..
  · split
    · exact .refl s
    · exact queuesKept_onLink s _ rfl rfl

/-! ## A stream's tiles and its end -/

theorem queuesKept_failHead (s : State) (holder : Nat) : QueuesKept s (failHead s holder) := by
  unfold failHead
  split
  · exact .refl s
  · unfold failRef failRead
    split
    · exact .after (vatOnly_freeRef ..).queues <| .after (queuesKept_raise ..) <| VatOnly.queues rfl
    · exact .after (vatOnly_freeRef ..).queues <| VatOnly.queues rfl

theorem queuesKept_deliverStream (n r : Nat) (s : State) : QueuesKept s (deliverStream n r s) := by
  induction n generalizing s with
  | zero => exact .refl s
  | succ n ih =>
    unfold deliverStream
    split
    · exact .refl s
    · dsimp only
      split
      · exact .refl s
      · split
        · exact ((queuesKept_failHead ..).trans (queuesKept_onMeas ..)).trans (ih _)
        · split
          · exact .refl s
          · split
            · exact .refl s
            · split
              · split
                · exact queuesKept_reportOrWait ..
                · exact (queuesKept_reportPage ..).trans (ih _)
              · split
                · exact queuesKept_onLink s _ rfl rfl
                · refine .after (ih _) ?_
                  split
                  · exact .after (queuesKept_reportOrWait ..) <| .after (queuesKept_onMeas ..) <| .after (vatOnly_releaseTile ..).queues <|
                      queuesKept_hostWrite ..
                  · exact .after (queuesKept_onMeas ..) <| .after (vatOnly_releaseTile ..).queues <| queuesKept_hostWrite ..

theorem queuesKept_releasePage (r : Nat) (s : State) : QueuesKept s (releasePage r s) := by
  unfold releasePage
  split
  · split
    · exact queuesKept_onMeas ..
    · exact .refl s
  · exact .refl s

theorem queuesKept_dropXfers (s : State) (gone : Xfer → Bool) : QueuesKept s (dropXfers s gone) := .of_rings (by simp) (by simp) (by simp)

theorem queuesKept_quietSeq (s : State) (id : Nat) : QueuesKept s (quietSeq s id) := by
  unfold quietSeq
  split
  · exact queuesKept_onMeas ..
  · exact .refl s

/-- A stream ends without a completion (R303, R328). -/
theorem queuesKept_endStream (s : State) (r : Nat) : QueuesKept s (endStream s r) := by
  unfold endStream
  split
  · exact .refl s
  · refine .trans ?_ (queuesKept_quietSeq ..)
    refine .trans ?_ (vatOnly_releaseAll ..).queues
    exact (((queuesKept_deliverStream ..).trans (queuesKept_releasePage ..)).trans (queuesKept_reportPage ..)).trans (queuesKept_dropXfers ..)

/-- The entries of the pages that are left are passed over, without a completion (R303). -/
theorem queuesKept_passPages (r : Nat) (s : State) : QueuesKept s (passPages r s) := by
  unfold passPages
  exact .after (queuesKept_onRing _ _ fun _ => rfl) <| queuesKept_foldl _ _ fun s _ => queuesKept_advanceRing s _

@[simp] theorem passPages_pages (r : Nat) (s : State) : (ringOf (passPages r s) (stIndex r)).pages = [] :=
  congrArg Ring.pages (Tbl.get_put_same ..)

@[simp] theorem passPages_meas (r : Nat) (s : State) : (passPages r s).meas = s.meas :=
  foldl_keeps (fun s t : State => t.meas = s.meas) (fun _ => rfl) (fun _ _ _ h k => Eq.trans k h) _ (ringOf s (stIndex r)).pages s fun _ _ => rfl

end Sys2Proof.Machine
end

section
/-!
PROOF. STREAM_START, STREAM_STOP, SEQ_DEFINE, SEQ_TRIGGER and CAPTURE_ARM of a command that is ready (R231, R251, R252, R262, R359 to R361, R363), and the
statement on all of them.
-/

namespace Sys2Proof.Machine

theorem queuesKept_accepted (s : State) (op : Op) (sub : Submission) : QueuesKept s (accepted s op sub) := .of_rings rfl rfl rfl

section
variable {s : State} {f : Flight} {sub : Submission} {P : State → Prop}

/-! ## STREAM_START (R359) -/

theorem streamStart_refused {status : Nat} (h : HostReady s .streamStart sub)
    (run : runStreamStart (stagedFlight s .streamStart sub []) (accepted s .streamStart sub)
      = done (accepted s .streamStart sub) (stagedFlight s .streamStart sub []) status) :
    Serves (.streamStart sub) s fun t => Refused s t .streamStart sub status :=
  serves_plain rfl h run (done_refused_of_queuesKept (queuesKept_accepted ..) ..)

theorem runStreamStart_range (out : 7 < arg f.sub 28 1 ∨ 7 < arg f.sub 29 1) : runStreamStart f s = done s f stRange := if_pos out

theorem runStreamStart_undefined (hid : arg f.sub 28 1 ≤ 7) (hr : arg f.sub 29 1 ≤ 7) (hq : Tbl.find s.meas.seqs (arg f.sub 28 1) = none) :
    runStreamStart f s = done s f stState := by
  unfold runStreamStart
  dsimp only
  rw [if_neg (by omega), hq]

/-- The stream of a sequence begun in a ring: what a burst leaves is cleared. -/
def streamBegun (id r : Nat) (q : Sequence) (s : State) : State :=
  setStream (setSeq s id { q with burstNo := 0, burst := none, armed := none, latch := none, acc := [] }) r { seqId := id }

theorem runStreamStart_defined {q : Sequence} (hid : arg f.sub 28 1 ≤ 7) (hr : arg f.sub 29 1 ≤ 7)
    (hq : Tbl.find s.meas.seqs (arg f.sub 28 1) = some q) :
    runStreamStart f s =
      if ringServed s (stIndex (arg f.sub 29 1)) = false then done s f stState
      else if (streamOf s (arg f.sub 28 1)).isSome = true ∨ (streamAt s (arg f.sub 29 1)).isSome = true then done s f stBusy
      else done (streamBegun (arg f.sub 28 1) (arg f.sub 29 1) q s) f stOk := by
  unfold runStreamStart
  dsimp only
  rw [if_neg (by omega), hq]
  simp only [Bool.not_eq_true', streamBegun]

/-- STREAM_START of a sequence that is defined. -/
theorem streamStart_defined {q : Sequence} (h : HostReady s .streamStart sub) (hid : arg sub 28 1 ≤ 7) (hr : arg sub 29 1 ≤ 7)
    (hq : Tbl.find s.meas.seqs (arg sub 28 1) = some q) :
    Serves (.streamStart sub) s fun t =>
      if ringServed s (stIndex (arg sub 29 1)) = false then Refused s t .streamStart sub stState
      else if (streamOf s (arg sub 28 1)).isSome = true ∨ (streamAt s (arg sub 29 1)).isSome = true then Refused s t .streamStart sub stBusy
      else
        Answers s t sub stOk 0 ∧ streamAt t (arg sub 29 1) = some { seqId := arg sub 28 1 } ∧ t.press = s.press
          ∧ Tbl.find t.meas.seqs (arg sub 28 1) = some { q with burstNo := 0, burst := none, armed := none, latch := none, acc := [] } := by
  have run := runStreamStart_defined (f := stagedFlight s .streamStart sub []) (s := accepted s .streamStart sub) hid hr hq
  by_cases unserved : ringServed s (stIndex (arg sub 29 1)) = false
  · simp only [if_pos unserved]
    exact streamStart_refused h (run.trans (if_pos unserved))
  · have run := run.trans (if_neg unserved)
    simp only [if_neg unserved]
    by_cases busy : (streamOf s (arg sub 28 1)).isSome = true ∨ (streamAt s (arg sub 29 1)).isSome = true
    · simp only [if_pos busy]
      exact streamStart_refused h (run.trans (if_pos busy))
    · simp only [if_neg busy]
      have kept : QueuesKept s (streamBegun (arg sub 28 1) (arg sub 29 1) q (accepted s .streamStart sub)) := .of_rings rfl rfl rfl
      refine serves_plain rfl h (run.trans (if_neg busy)) ⟨done_answers_of_queuesKept kept .., ?_, (doneWith_press ..).trans kept.press, ?_⟩
      · rw [streamAt, done, doneWith_meas]
        exact Tbl.find_put_same ..
      · rw [done, doneWith_meas]
        exact Tbl.find_put_same ..

/-! ## STREAM_STOP (R303, R360) -/

theorem runStreamStop_none (hr : arg f.sub 28 1 ≤ 7) (none : streamAt s (arg f.sub 28 1) = none) : runStreamStop f s = done s f stState := by
  unfold runStreamStop
  dsimp only
  rw [if_neg (by omega), none]

/-- A stream's pages at its end, and the entries that no page filled passed over. -/
def streamEnded (r : Nat) (x : Stream) (s : State) : State := passPages r (if x.stopped.isNone then endStream s r else s)

/-- A ring without its stream. -/
def streamGone (r : Nat) (s : State) : State := s.onMeas fun m => { m with streams := Tbl.del m.streams r }

theorem runStreamStop_some {x : Stream} (hr : arg f.sub 28 1 ≤ 7) (some : streamAt s (arg f.sub 28 1) = some x) :
    runStreamStop f s = doneWith (streamGone (arg f.sub 28 1) (streamEnded (arg f.sub 28 1) x s)) f stOk
      (w32 (x.stopped.getD 0 + satN 16777215 ((streamAt (streamEnded (arg f.sub 28 1) x s) (arg f.sub 28 1)).elim 0 (·.pages)) * 256)) := by
  unfold runStreamStop
  dsimp only
  rw [if_neg (by omega), some]
  rfl

theorem queuesKept_streamEnded (r : Nat) (x : Stream) (s : State) : QueuesKept s (streamEnded r x s) := by
  refine .after (queuesKept_passPages ..) ?_
  split
  · exact queuesKept_endStream ..
  · exact .refl s

/-- The pages of a stream that the device has stopped are counted already. -/
theorem streamAt_streamEnded {r : Nat} {x : Stream} (stopped : x.stopped.isSome = true) : streamAt (streamEnded r x s) r = streamAt s r := by
  have ended : x.stopped.isNone = false := by simpa using stopped
  rw [streamEnded, streamAt, passPages_meas, ended]
  rfl

/-- STREAM_STOP of a ring. -/
theorem streamStop_ring (h : HostReady s .streamStop sub) (hr : arg sub 28 1 ≤ 7) :
    Serves (.streamStop sub) s fun t =>
      (streamAt s (arg sub 28 1) = none → Refused s t .streamStop sub stState)
        ∧ (∀ x, streamAt s (arg sub 28 1) = some x → streamAt t (arg sub 28 1) = none ∧ t.press = s.press ∧ (ringOf t (stIndex (arg sub 28 1))).pages = []
            ∧ ∃ pages, Answers s t sub stOk (w32 (x.stopped.getD 0 + satN 16777215 pages * 256)) ∧ (x.stopped.isSome = true → pages = x.pages)) := by
  cases at_ : streamAt s (arg sub 28 1) with
  | none =>
    refine serves_plain rfl h (runStreamStop_none hr at_) ⟨fun _ => done_refused_of_queuesKept (queuesKept_accepted ..) .., ?_⟩
    rintro x ⟨⟩
  | some x =>
    have kept : QueuesKept s (streamGone (arg sub 28 1) (streamEnded (arg sub 28 1) x (accepted s .streamStop sub))) :=
      .after (queuesKept_onMeas ..) <| .after (queuesKept_streamEnded ..) <| queuesKept_accepted ..
    refine serves_plain rfl h (runStreamStop_some hr at_) ⟨by rintro ⟨⟩, ?_⟩
    rintro _ ⟨rfl⟩
    refine ⟨?_, (doneWith_press ..).trans kept.press, ?_, _, doneWith_answers_of_queuesKept kept .., fun stopped => ?_⟩
    · rw [streamAt, doneWith_meas]
      exact Tbl.find_del_same ..
    · rw [ringOf, doneWith_rings]
      exact passPages_pages ..
    · have last : streamAt (streamEnded (arg sub 28 1) x (accepted s .streamStop sub)) (arg sub 28 1) = some x :=
        (streamAt_streamEnded stopped).trans at_
      exact congrArg (fun y : Option Stream => y.elim 0 (·.pages)) last

/-! ## SEQ_DEFINE (R231, R251, R363) -/

/-- Check 5 of R338 has given the definition a buffer, so it is read through tiles. -/
theorem bulkNeed_seqDefine (h : HostReady s .seqDefine sub) : bulkNeed (flightFor s .seqDefine sub) ≠ 0 := by
  obtain ⟨-, -, -, -, -, checks, -⟩ := h
  have buffer : check5 .seqDefine sub = none := by
    unfold commonChecks at checks
    split at checks
    · cases checks
    · split at checks
      · cases checks
      · split at checks
        · cases checks
        · assumption
  have least : 20 ≤ sub.bufLen := by
    simp only [check5, bufferNeed, ite_eq_right_iff, reduceCtorEq, imp_false, not_or] at buffer
    omega
  have read : bufferRead .seqDefine sub ≠ 0 := by
    have both : 0 < Nat.min sub.bufLen ((16 + (parseSeq sub.data).nodes.length + 3) / 4 * 4) := Nat.lt_min.mpr ⟨by omega, by omega⟩
    exact Nat.ne_of_gt both
  simp only [bulkNeed, flightFor, tilesFor]
  omega

/-- A sequence's definition put in place of the one before, and its overruns forgotten. -/
def seqStored (id : Nat) (q : Sequence) (s : State) : State :=
  (setSeq s id (redefined (Tbl.find s.meas.seqs id) q)).onMeas fun m => { m with overruns := Tbl.del m.overruns id }

theorem runSeqDefine_eq (f : Flight) (s : State) :
    runSeqDefine f s =
      if f.sub.bufLen < (16 + (parseSeq f.sub.data).nodes.length + 3) / 4 * 4 ∨ seqInRange (byteAt f.sub.data 0) (parseSeq f.sub.data) = false
          ∨ loadLimit s (parseSeq f.sub.data).bank
            < bankLoad s (parseSeq f.sub.data).bank (byteAt f.sub.data 0) + seqLoad (parseSeq f.sub.data).spacing then done s f stRange
      else if (streamOf s (byteAt f.sub.data 0)).isSome = true then done s f stBusy
      else done (seqStored (byteAt f.sub.data 0) (parseSeq f.sub.data) s) f stOk := by
  simp only [runSeqDefine, seqStored, Bool.not_eq_true, ← or_assoc]
  split
  · next out => exact (if_pos (.inl out)).symm
  · next within =>
    split
    · next load => exact (if_pos (.inr load)).symm
    · next fits => exact (if_neg (not_or.mpr ⟨within, fits⟩)).symm

/-- What SEQ_DEFINE reads of the measurement is as it was when the command came. -/
theorem LinkOnly.measurement {t : State} (h : LinkOnly s t) :
    (∀ b, loadLimit t b = loadLimit s b) ∧ (∀ b id, bankLoad t b id = bankLoad s b id) ∧ ∀ id, streamOf t id = streamOf s id := by
  rw [h]
  exact ⟨fun _ => rfl, fun _ _ => rfl, fun _ => rfl⟩

theorem seqDefine_serves (h : HostReady s .seqDefine sub) :
    Serves (.seqDefine sub) s fun t =>
      let id := byteAt sub.data 0
      let q := parseSeq sub.data
      if sub.bufLen < (16 + q.nodes.length + 3) / 4 * 4 ∨ seqInRange id q = false ∨ loadLimit s q.bank < bankLoad s q.bank id + seqLoad q.spacing then
        Refused s t .seqDefine sub stRange
      else if (streamOf s id).isSome = true then Refused s t .seqDefine sub stBusy
      else Answers s t sub stOk 0 ∧ Tbl.find t.meas.seqs id = some (redefined (Tbl.find s.meas.seqs id) q) ∧ t.press = s.press := by
  refine serves_buffered rfl h (bulkNeed_seqDefine h) fun rs => ?_
  obtain ⟨frame, kept⟩ := startOf_frame s .seqDefine sub
  obtain ⟨limit, load, stream⟩ := frame.measurement
  have run := runSeqDefine_eq (stagedFlight s .seqDefine sub rs) (startOf s .seqDefine sub)
  rw [stagedFlight_sub, limit, load, stream] at run
  generalize parseSeq sub.data = q at run ⊢
  generalize byteAt sub.data 0 = id at run ⊢
  have run : runOp (stagedFlight s .seqDefine sub rs) (startOf s .seqDefine sub) = _ := run
  dsimp only
  rw [run]
  split
  · exact done_refused_of_queuesKept kept ..
  · split
    · exact done_refused_of_queuesKept kept ..
    · have stored : QueuesKept s (seqStored id q (startOf s .seqDefine sub)) := .after (queuesKept_onMeas ..) <| .after (queuesKept_onMeas ..) kept
      refine ⟨done_answers_of_queuesKept stored .., ?_, (doneWith_press ..).trans stored.press⟩
      rw [done, doneWith_meas, ← frame.meas]
      exact Tbl.find_put_same ..

/-! ## SEQ_TRIGGER (R252, R363) -/

theorem runSeqTrigger_now (hid : arg f.sub 28 1 ≤ 7) (now : f.sub.time = 0) :
    runSeqTrigger f s = doneWith (seqTrigger s (arg f.sub 28 1) s.time.gtc) f stOk (w32 (triggerOutcome s (arg f.sub 28 1) s.time.gtc)) := by
  unfold runSeqTrigger
  dsimp only
  rw [if_neg (by omega), if_pos now]

theorem queuesKept_seqTrigger (s : State) (id t : Nat) : QueuesKept s (seqTrigger s id t) :=
  .of_link (by rw [routerOnly_seqTrigger]) (seqTrigger_link ..)

/-- A trigger whose outcome is that it is dropped is counted (R253). -/
theorem seqTrigger_dropped {id t : Nat} (dropped : triggerOutcome s id t = 2) :
    Tbl.get 0 (seqTrigger s id t).meas.overruns id = satN 4294967295 (Tbl.get 0 s.meas.overruns id + 1) := by
  unfold triggerOutcome at dropped
  unfold seqTrigger
  cases defined : Tbl.find s.meas.seqs id with
  | none => rw [defined] at dropped; cases dropped
  | some q =>
    rw [defined] at dropped
    have rolled : (rollBurst s q (Nat.max t s.time.gtc)).suspended = q.suspended := by unfold rollBurst; split <;> rfl
    dsimp only at dropped ⊢
    rw [rolled]
    split at dropped
    · cases dropped
    · next runs =>
      rw [if_neg runs]
      split at dropped
      · cases dropped
      · next full =>
        rw [if_neg full]
        split at dropped
        · cases dropped
        · next latched =>
          rw [if_neg latched]
          exact Tbl.get_put_same ..

theorem seqTrigger_serves (h : HostReady s .seqTrigger sub) :
    Serves (.seqTrigger sub) s fun t =>
      if 7 < arg sub 28 1 then Refused s t .seqTrigger sub stRange
      else
        Answers s t sub stOk (w32 (triggerOutcome s (arg sub 28 1) s.time.gtc)) ∧ t.press = s.press
          ∧ (triggerOutcome s (arg sub 28 1) s.time.gtc = 2 →
              Tbl.get 0 t.meas.overruns (arg sub 28 1) = satN 4294967295 (Tbl.get 0 s.meas.overruns (arg sub 28 1) + 1)) := by
  have now : sub.time = 0 := HostReady.now h
  by_cases out : 7 < arg sub 28 1
  · simp only [if_pos out]
    exact serves_plain rfl h (if_pos out) (done_refused_of_queuesKept (queuesKept_accepted ..) ..)
  · simp only [if_neg out]
    have kept : QueuesKept s (seqTrigger (accepted s .seqTrigger sub) (arg sub 28 1) s.time.gtc) :=
      .after (queuesKept_seqTrigger ..) <| queuesKept_accepted ..
    refine serves_plain rfl h (runSeqTrigger_now (Nat.le_of_not_lt out) now)
      ⟨doneWith_answers_of_queuesKept kept .., (doneWith_press ..).trans kept.press, fun dropped => ?_⟩
    rw [doneWith_meas]
    exact seqTrigger_dropped (s := accepted s .seqTrigger sub) dropped

/-! ## CAPTURE_ARM (R262, R361) -/

theorem capOf_setCap (s : State) (k j : Nat) (c : Capture) : capOf (setCap s k c) j = if j = k then c else capOf s j := Tbl.get_put ..

theorem capOf_done (s t : State) (op : Op) (sub : Submission) (rs : List (Nat × Nat)) (status k : Nat) :
    capOf (done t (stagedFlight s op sub rs) status) k = capOf t k := by
  rw [capOf, done, doneWith_meas]
  rfl

/-- A trigger starts an armed capture. -/
theorem fireCapture_armed {k : Nat} (armed : (capOf s k).state = .armed) (src code t : Nat) :
    (capOf (fireCapture s k src code t) k).state = .filling ∧ (capOf (fireCapture s k src code t) k).trigGtc = t := by
  unfold fireCapture
  dsimp only
  rw [armed]
  dsimp only
  rw [capOf_setCap, if_pos rfl]
  exact ⟨rfl, rfl⟩

theorem queuesKept_fireCapture (s : State) (k src code t : Nat) : QueuesKept s (fireCapture s k src code t) :=
  .of_link (by rw [routerOnly_fireCapture]) (fireCapture_link ..)

/-- What a command with the trigger code and source of a free choice fires (R264). -/
def captureFired (k : Nat) (s : State) : State := fireCapture (draw s).2 k ((draw s).1 % 256) ((draw s).1 / 256 % 65536) s.time.gtc

theorem runCaptureArm_fire (fire : flag f.sub 3 = true) (slot : arg f.sub 28 1 ≤ 3) (now : f.sub.time = 0) :
    runCaptureArm f s = if (capOf s (arg f.sub 28 1)).state = .armed then done (captureFired (arg f.sub 28 1) s) f stOk else done s f stState := by
  unfold runCaptureArm captureFired
  dsimp only
  rw [if_pos fire, if_neg (by omega), if_pos now, ite_not]

theorem captureArm_fire (h : HostReady s .captureArm sub) (fire : flag sub 3 = true) (slot : arg sub 28 1 ≤ 3) :
    Serves (.captureArm sub) s fun t =>
      if (capOf s (arg sub 28 1)).state = .armed then
        Answers s t sub stOk (defaultResult s (flightFor s .captureArm sub)) ∧ (capOf t (arg sub 28 1)).state = .filling
          ∧ (capOf t (arg sub 28 1)).trigGtc = s.time.gtc ∧ t.press = s.press
      else Refused s t .captureArm sub stState := by
  have now : sub.time = 0 := HostReady.now h
  have run := runCaptureArm_fire (f := stagedFlight s .captureArm sub []) (s := accepted s .captureArm sub) fire slot now
  by_cases armed : (capOf s (arg sub 28 1)).state = .armed
  · simp only [if_pos armed]
    have kept : QueuesKept s (captureFired (arg sub 28 1) (accepted s .captureArm sub)) :=
      .after (queuesKept_fireCapture ..) <| .of_rings rfl rfl rfl
    obtain ⟨filling, stamp⟩ := fireCapture_armed (s := (draw (accepted s .captureArm sub)).2) armed
      ((draw (accepted s .captureArm sub)).1 % 256) ((draw (accepted s .captureArm sub)).1 / 256 % 65536) s.time.gtc
    refine serves_plain rfl h (run.trans (if_pos armed)) ⟨done_answers_of_queuesKept kept .., ?_, ?_, (doneWith_press ..).trans kept.press⟩
    · rw [capOf_done]
      exact filling
    · rw [capOf_done]
      exact stamp
  · simp only [if_neg armed]
    exact serves_plain rfl h (run.trans (if_neg armed)) (done_refused_of_queuesKept (queuesKept_accepted ..) ..)

/-- The capture that a CAPTURE_ARM arms. -/
def armedCapture (s : State) (sub : Submission) : Capture :=
  { state := .armed, nodes := captureNodes sub, trigKind := arg sub 30 1, trigUnit := handleUnit sub.handle, trigArg := arg sub 40 4,
    pre := arg sub 32 4, post := arg sub 36 4, tiles := tilesFor (captureSize s sub) }

/-- A capture armed, with the tiles that its slot wants then. -/
def captureArmed (k : Nat) (c : Capture) (s : State) : State := settleCapture k (setCap s k c)

theorem runCaptureArm_arm (arm : flag f.sub 3 = false) :
    runCaptureArm f s =
      if captureInRange s f.sub = false then done s f stRange
      else if (capOf s (arg f.sub 28 1)).state = .filling ∨ ((capOf s (arg f.sub 28 1)).state = .held ∧ flag f.sub 2 = false) then done s f stBusy
      else done (captureArmed (arg f.sub 28 1) (armedCapture s f.sub) s) f stOk := by
  unfold runCaptureArm captureArmed armedCapture
  dsimp only
  rw [arm]
  simp only [Bool.false_eq_true, if_false, Bool.not_eq_true]

theorem queuesKept_captureArmed (k : Nat) (c : Capture) (s : State) : QueuesKept s (captureArmed k c s) :=
  .after (vatOnly_settleCapture ..).queues <| queuesKept_onMeas ..

theorem capOf_captureArmed (k j : Nat) (c : Capture) (s : State) : capOf (captureArmed k c s) j = if j = k then c else capOf s j := by
  rw [← capOf_setCap, captureArmed, vatOnly_settleCapture]
  rfl

theorem captureArm_arm (h : HostReady s .captureArm sub) (arm : flag sub 3 = false) :
    Serves (.captureArm sub) s fun t =>
      let k := arg sub 28 1
      if captureInRange s sub = false then Answers s t sub stRange (defaultResult s (flightFor s .captureArm sub)) ∧ t.press = s.press
      else if (capOf s k).state = .filling ∨ ((capOf s k).state = .held ∧ flag sub 2 = false) then
        Answers s t sub stBusy (defaultResult s (flightFor s .captureArm sub)) ∧ t.press = s.press
      else
        Answers s t sub stOk (defaultResult s (flightFor s .captureArm sub)) ∧ t.press = s.press
          ∧ capOf t k = { state := .armed, nodes := captureNodes sub, trigKind := arg sub 30 1, trigUnit := handleUnit sub.handle, trigArg := arg sub 40 4,
                          pre := arg sub 32 4, post := arg sub 36 4,
                          tiles := tilesFor (captureSize s sub) } ∧ ∀ j, j ≠ k → capOf t j = capOf s j := by
  have run := runCaptureArm_arm (f := stagedFlight s .captureArm sub []) (s := accepted s .captureArm sub) arm
  have before := queuesKept_accepted s .captureArm sub
  dsimp only
  by_cases out : captureInRange s sub = false
  · simp only [if_pos out]
    exact serves_plain rfl h (run.trans (if_pos out)) (done_refused_of_queuesKept before ..)
  · have run := run.trans (if_neg out)
    simp only [if_neg out]
    by_cases busy : (capOf s (arg sub 28 1)).state = .filling ∨ ((capOf s (arg sub 28 1)).state = .held ∧ flag sub 2 = false)
    · simp only [if_pos busy]
      exact serves_plain rfl h (run.trans (if_pos busy)) (done_refused_of_queuesKept before ..)
    · simp only [if_neg busy]
      have kept : QueuesKept s (captureArmed (arg sub 28 1) (armedCapture s sub) (accepted s .captureArm sub)) := .after (queuesKept_captureArmed ..) before
      refine serves_plain rfl h (run.trans (if_neg busy)) ⟨done_answers_of_queuesKept kept .., (doneWith_press ..).trans kept.press, ?_, fun j other => ?_⟩
      · rw [capOf_done]
        exact (capOf_captureArmed ..).trans (if_pos rfl)
      · rw [capOf_done]
        exact (capOf_captureArmed ..).trans (if_neg other)

end

/-! ## The statement -/

/-- Settles O49: each command by the state its `run` leaves; the clauses on one outcome are read off those on all of a command's outcomes. -/
theorem sequencesStreamsAndCaptures : Obligations.SequencesStreamsAndCaptures := by
  unfold Obligations.SequencesStreamsAndCaptures
  refine ⟨?startDefined, ?started, ?stopStopped, ?stopRunning, ?defined, ?triggered, ?armed, ?startUndefined, ?stop, ?define, ?trigger, ?arm, ?fire,
    ?startRange⟩
  case startDefined => exact fun s sub q h hid hr hq => streamStart_defined h hid hr hq
  case started =>
    intro s sub q h hid hr hq served idle free
    refine (streamStart_defined h hid hr hq).mono fun t effect => ?_
    rw [served, idle, free, if_neg (by decide), if_neg (by decide)] at effect
    exact ⟨effect.1, effect.2.1⟩
  case stopStopped =>
    intro s sub x c h hr at_ stopped
    refine (streamStop_ring h hr).mono fun t ⟨_, effect⟩ => ?_
    obtain ⟨gone, -, passed, pages, answer, counted⟩ := effect x at_
    rw [stopped, counted (by rw [stopped]; rfl)] at answer
    exact ⟨gone, answer, passed⟩
  case stopRunning =>
    intro s sub x h hr at_ running
    refine (streamStop_ring h hr).mono fun t ⟨_, effect⟩ => ?_
    obtain ⟨gone, -, passed, pages, answer, -⟩ := effect x at_
    rw [running, Option.getD_none, Nat.zero_add] at answer
    exact ⟨gone, passed, pages, answer⟩
  case defined =>
    rintro s sub _ _ h rfl rfl buffer range load idle
    refine (seqDefine_serves h).mono fun t effect => ?_
    have passes : ¬ (sub.bufLen < (16 + (parseSeq sub.data).nodes.length + 3) / 4 * 4 ∨ seqInRange (byteAt sub.data 0) (parseSeq sub.data) = false
        ∨ loadLimit s (parseSeq sub.data).bank
          < bankLoad s (parseSeq sub.data).bank (byteAt sub.data 0) + seqLoad (parseSeq sub.data).spacing) := by
      rintro (short | bad | heavy)
      · exact Nat.not_lt.mpr buffer short
      · rw [range] at bad; cases bad
      · exact Rat.not_lt.mpr load heavy
    dsimp only at effect
    rw [if_neg passes, idle, if_neg (by decide)] at effect
    exact ⟨effect.1, effect.2.1⟩
  case triggered =>
    intro s sub h hid
    refine (seqTrigger_serves h).mono fun t effect => ?_
    rw [if_neg (Nat.not_lt.mpr hid)] at effect
    exact effect.1
  case armed =>
    intro s sub h arm range state
    refine (captureArm_arm h arm).mono fun t effect => ?_
    dsimp only at effect
    rw [range, if_neg (by decide), if_neg (by rcases state with e | e <;> simp [e])] at effect
    obtain ⟨answer, -, capture, -⟩ := effect
    exact ⟨answer, by rw [capture], by rw [capture]⟩
  case startUndefined => exact fun s sub h hid hr hq => streamStart_refused h (runStreamStart_undefined hid hr hq)
  case stop => exact fun s sub h hr => streamStop_ring h hr
  case define => exact fun s sub h => seqDefine_serves h
  case trigger => exact fun s sub h => seqTrigger_serves h
  case arm => exact fun s sub h arm => captureArm_arm h arm
  case fire => exact fun s sub h fire slot => captureArm_fire h fire slot
  case startRange => exact fun s sub h out => streamStart_refused h (runStreamStart_range out)

end Sys2Proof.Machine
end
